-- ==== Sys2Proof/Word.lean ====
section
/-!
DEFINITION. The byte of the two ports, and the fixed-size tuples the station is made of: two of a thing (weirs,
screens), three (floats, power lines) and six (pumps, external channels, duty positions).
-/

namespace Sys2Proof

/-- A byte of the panel port or of the town link. -/
abbrev Byte := BitVec 8

/-- Number of one of two like things: a weir or a screen (section 4.4). -/
inductive Ix2
  | i1 | i2
  deriving DecidableEq, Repr

/-- Number of one of six like things: a pump, an external converter channel or a duty position (section 4.4). -/
inductive Ix6
  | i1 | i2 | i3 | i4 | i5 | i6
  deriving DecidableEq, Repr

/-- One value for each of two like things. -/
structure Two (α : Type) where
  a1 : α
  a2 : α
  deriving DecidableEq, Repr

/-- One value for each of six like things. -/
structure Six (α : Type) where
  a1 : α
  a2 : α
  a3 : α
  a4 : α
  a5 : α
  a6 : α
  deriving DecidableEq, Repr

/-- The number the manual gives it, 1 or 2. -/
def Ix2.num : Ix2 → Nat
  | .i1 => 1
  | .i2 => 2

/-- The number the manual gives it, 1 to 6. -/
def Ix6.num : Ix6 → Nat
  | .i1 => 1
  | .i2 => 2
  | .i3 => 3
  | .i4 => 4
  | .i5 => 5
  | .i6 => 6

/-- Both, in number order. -/
def Ix2.all : List Ix2 := [.i1, .i2]

/-- All six, in number order. -/
def Ix6.all : List Ix6 := [.i1, .i2, .i3, .i4, .i5, .i6]

variable {α β : Type}

def Two.get (v : Two α) : Ix2 → α
  | .i1 => v.a1
  | .i2 => v.a2

def Two.modify (v : Two α) (i : Ix2) (f : α → α) : Two α :=
  match i with
  | .i1 => { v with a1 := f v.a1 }
  | .i2 => { v with a2 := f v.a2 }

def Two.map (f : α → β) (v : Two α) : Two β := ⟨f v.a1, f v.a2⟩

def Two.toList (v : Two α) : List α := [v.a1, v.a2]

/-- The same value twice. -/
def Two.const (x : α) : Two α := ⟨x, x⟩

def Six.get (v : Six α) : Ix6 → α
  | .i1 => v.a1
  | .i2 => v.a2
  | .i3 => v.a3
  | .i4 => v.a4
  | .i5 => v.a5
  | .i6 => v.a6

def Six.modify (v : Six α) (i : Ix6) (f : α → α) : Six α :=
  match i with
  | .i1 => { v with a1 := f v.a1 }
  | .i2 => { v with a2 := f v.a2 }
  | .i3 => { v with a3 := f v.a3 }
  | .i4 => { v with a4 := f v.a4 }
  | .i5 => { v with a5 := f v.a5 }
  | .i6 => { v with a6 := f v.a6 }

def Six.map (f : α → β) (v : Six α) : Six β :=
  ⟨f v.a1, f v.a2, f v.a3, f v.a4, f v.a5, f v.a6⟩

/-- The six values made from the six numbers. -/
def Six.gen (f : Ix6 → α) : Six α := ⟨f .i1, f .i2, f .i3, f .i4, f .i5, f .i6⟩

/-- The two values made from the two numbers. -/
def Two.gen (f : Ix2 → α) : Two α := ⟨f .i1, f .i2⟩

def Six.toList (v : Six α) : List α := [v.a1, v.a2, v.a3, v.a4, v.a5, v.a6]

/-- The same value six times. -/
def Six.const (x : α) : Six α := ⟨x, x, x, x, x, x⟩

end Sys2Proof
end

