-- ==== Sys2Proof/Syntax.lean ====
section
/-!
DEFINITION. The commands of the part: one constructor for each row of spec/opcode_table.json, in the table's order.
A panel command carries the parameter bytes of its exchange, so that every value the wire can carry, in range or not,
has its command. A town frame carries its payload whole, so that a payload of the wrong length has its command too.
-/

namespace Sys2Proof

/-- The three float switches of the wet well (section 1.4). -/
inductive FloatId
  | low | high | highHigh
  deriving DecidableEq, Repr

/-- The two lines of a pump's selector (section 3.2). -/
inductive SelectorLine
  | hand | auto
  deriving DecidableEq, Repr

/-- The three inputs of a pump's starter (section 4.1). -/
inductive PumpInput
  | feedback | thermal | sealProbe
  deriving DecidableEq, Repr

/-- The three lines from the transfer switch (section 5.1). -/
inductive PowerLine
  | mainsOk | genOn | transferReq
  deriving DecidableEq, Repr

/-- The three debounced inputs of a rake (section 6.1). -/
inductive RakeInput
  | home | bottom | overload
  deriving DecidableEq, Repr

/-- The commands: what reaches the part from outside, and the expiries of its timers. -/
inductive Instr
  /-- ROUND_COMPLETE (R1): a sample round completes: channels 1 to 6, then REFERENCE. -/
  | roundComplete (samples : Six (BitVec 12)) (reference : BitVec 12)
  /-- PERIOD_END (R5): the round that completes the period, and the period end it is. -/
  | periodEnd (samples : Six (BitVec 12)) (reference : BitVec 12)
  /-- FLOAT_INPUT_CHANGE (R8): a float's input goes to made or open. -/
  | floatInputChange (float : FloatId) (made : Bool)
  /-- FLOAT_DEBOUNCE_EXPIRY (R8): a float's debounce timer expires. -/
  | floatDebounceExpiry (float : FloatId)
  /-- SEPARATION_TIMER_EXPIRY (R31): a weir's separation timer expires. -/
  | separationTimerExpiry (weir : Ix2)
  /-- TAKE_TALLY (R33): town request; payload: weir. -/
  | takeTally (tag : Byte) (payload : List Byte)
  /-- READ_TALLIES (R34): panel command. -/
  | readTallies
  /-- READ_CHANNELS (R16): panel command. -/
  | readChannels
  /-- SELECTOR_LINE_CHANGE (R38): a selector line goes to made or open. -/
  | selectorLineChange (pump : Ix6) (line : SelectorLine) (made : Bool)
  /-- SELECTOR_DEBOUNCE_EXPIRY (R38): a selector line's debounce timer expires. -/
  | selectorDebounceExpiry (pump : Ix6) (line : SelectorLine)
  /-- START_HISTORY_AGE_OUT (R40): the oldest start of a pump reaches 3600 s of age. -/
  | startHistoryAgeOut (pump : Ix6)
  /-- HEAD_BLOCKED_DELAY_EXPIRY (R42): a pump's head-blocked delay timer expires. -/
  | headBlockedDelayExpiry (pump : Ix6)
  /-- SET_DUTY_ORDER (R50): panel command; the new ladder, front first. -/
  | setDutyOrder (order : Six Byte)
  /-- INHIBIT_PUMP (R51): panel command. -/
  | inhibitPump (pump : Byte)
  /-- RELEASE_PUMP (R51): panel command. -/
  | releasePump (pump : Byte)
  /-- INHIBIT (R52): town request; payload: pump, on or off. -/
  | inhibit (tag : Byte) (payload : List Byte)
  /-- DRAWDOWN (R53): town request; payload: offset, minutes. -/
  | drawdown (tag : Byte) (payload : List Byte)
  /-- DRAWDOWN_EXPIRY (R54): the drawdown timer expires. -/
  | drawdownExpiry
  /-- RUN_SECONDS_TICK (R55): a pump's run tick count has reached 100. -/
  | runSecondsTick (pump : Ix6)
  /-- LOAD_TOTALS (R56): panel command. -/
  | loadTotals (pump : Byte) (runSeconds starts : BitVec 32)
  /-- READ_PUMP (R57): panel command. -/
  | readPump (pump : Byte)
  /-- PUMP_INPUT_CHANGE (R60): a pump input changes: present or abnormal is true. -/
  | pumpInputChange (pump : Ix6) (input : PumpInput) (value : Bool)
  /-- PUMP_INPUT_DEBOUNCE_EXPIRY (R60): a pump input's debounce timer expires. -/
  | pumpInputDebounceExpiry (pump : Ix6) (input : PumpInput)
  /-- START_WINDOW_EXPIRY (R65): a pump's start window expires. -/
  | startWindowExpiry (pump : Ix6)
  /-- MIN_RUN_EXPIRY (R66): a pump's minimum run timer expires. -/
  | minRunExpiry (pump : Ix6)
  /-- STOP_WINDOW_EXPIRY (R70): a pump's stop window expires. -/
  | stopWindowExpiry (pump : Ix6)
  /-- RUN_DOWN_EXPIRY (R70): a pump's run-down timer expires. -/
  | runDownExpiry (pump : Ix6)
  /-- RESET_LOCKOUT (R77): panel command; asset class and number. -/
  | resetLockout (cls number : Byte)
  /-- POWER_LINE_CHANGE (R81): a power line goes to made or open. -/
  | powerLineChange (line : PowerLine) (made : Bool)
  /-- POWER_LINE_DEBOUNCE_EXPIRY (R81): a power line's debounce timer expires. -/
  | powerLineDebounceExpiry (line : PowerLine)
  /-- STAGGER_TIMER_EXPIRY (R87): the stagger timer expires. -/
  | staggerTimerExpiry
  /-- RAKE_INPUT_CHANGE (R96): a rake input goes to made or open. -/
  | rakeInputChange (screen : Ix2) (input : RakeInput) (made : Bool)
  /-- RAKE_INPUT_DEBOUNCE_EXPIRY (R96): a rake input's debounce timer expires. -/
  | rakeInputDebounceExpiry (screen : Ix2) (input : RakeInput)
  /-- PULSE (R111): a rising edge of PULSE. -/
  | pulse (screen : Ix2)
  /-- GRIP_DWELL_EXPIRY (R101): the dwell timer expires in GRIPPING. -/
  | gripDwellExpiry (screen : Ix2)
  /-- DISCHARGE_DWELL_EXPIRY (R102): the dwell timer expires in DISCHARGING. -/
  | dischargeDwellExpiry (screen : Ix2)
  /-- RAKE_CYCLE (R104): panel command. -/
  | rakeCycle (screen : Byte)
  /-- RAKE_HOME (R106): panel command. -/
  | rakeHome (screen : Byte)
  /-- RAKE_POSITION (R107): panel command. -/
  | rakePosition (screen : Byte) (position : BitVec 16)
  /-- RAKE_FINISH (R108): panel command. -/
  | rakeFinish (screen count : Byte)
  /-- JAM_TIMER_EXPIRY (R112): a rake's jam timer expires. -/
  | jamTimerExpiry (screen : Ix2)
  /-- REVERSE_TIMER_EXPIRY (R112): a rake's reverse timer expires. -/
  | reverseTimerExpiry (screen : Ix2)
  /-- SENSE_SCREEN (R116): panel command. -/
  | senseScreen (screen : Byte)
  /-- READ_SCREEN (R117): panel command. -/
  | readScreen (screen : Byte)
  /-- ACKNOWLEDGE (R128): panel command. -/
  | acknowledge (slot generation : Byte)
  /-- TOWN_ACKNOWLEDGE (R184): town request; payload: slot, generation. -/
  | townAcknowledge (tag : Byte) (payload : List Byte)
  /-- RETIRE (R130): panel command. -/
  | retire (slot generation : Byte)
  /-- TOWN_RETIRE (R184): town request; payload: slot, generation. -/
  | townRetire (tag : Byte) (payload : List Byte)
  /-- SHELVE (R135): panel command. -/
  | shelve (slot generation : Byte) (minutes : BitVec 16)
  /-- UNSHELVE (R136): panel command. -/
  | unshelve (slot generation : Byte)
  /-- SHELF_TIMER_EXPIRY (R136): the shelf timer of the record in a slot expires. -/
  | shelfTimerExpiry (slot : Fin 48)
  /-- POST_CONDITION (R138): panel command; eight data bytes. -/
  | postCondition (code severity length : Byte) (data : List Byte)
  /-- RETURN_CONDITION (R139): panel command. -/
  | returnCondition (code : Byte)
  /-- ACKNOWLEDGE_ALL (R140): panel command. -/
  | acknowledgeAll (severity cls shelved : Byte)
  /-- RETIRE_DORMANT (R141): panel command. -/
  | retireDormant
  /-- FIND_CONDITION (R142): panel command. -/
  | findCondition (cls number kind : Byte)
  /-- SILENCE (R147): panel command. -/
  | silence
  /-- FLASH_PHASE (R151): 500 ms of uptime: the flash phase turns. -/
  | flashPhase
  /-- STATUS_WRITE (R154): write strobe, A0 = 0. -/
  | statusWrite (byte : Byte)
  /-- DATA_READ (R154): read strobe, A0 = 1, with TC asserted or not. -/
  | dataRead (tc : Bool)
  /-- PARAMETER_BYTE (R156): write strobe, A0 = 1, in PARAMETERS. -/
  | parameterByte (byte : Byte)
  /-- INVALID_COMMAND (R157): write strobe, A0 = 1, of a code that names no command. -/
  | invalidCommand (code : Byte)
  /-- READ_CONDITIONS (R162): panel command. -/
  | readConditions (start maximum severity states shelved cls : Byte)
  /-- BYTE_WINDOW_EXPIRY (R164): the byte window expires. -/
  | byteWindowExpiry
  /-- READ_ATTENTION (R168): panel command. -/
  | readAttention
  /-- SET_ATTENTION_ENABLES (R169): panel command. -/
  | setAttentionEnables (enables : Byte)
  /-- PORT_RESET (R170): panel command. -/
  | portReset
  /-- RESET_ASSERT (R171): RESET# is asserted. -/
  | resetAssert
  /-- RESET_RELEASE (R171): RESET# is released. -/
  | resetRelease
  /-- RESET_TIMER_EXPIRY (R171): the RESET# timer expires. -/
  | resetTimerExpiry
  /-- READ_SUMMARY (R172): panel command. -/
  | readSummary
  /-- FRAME_CHECK_FAIL (R174): a received frame ends with a bad length or a bad check. -/
  | frameCheckFail
  /-- FRAMING_ERROR (R174): a byte is received with a framing error. -/
  | framingError
  /-- INTER_BYTE_TIMER_EXPIRY (R174): the inter-byte timer expires. -/
  | interByteTimerExpiry
  /-- FRAME_SENT (R175): the last byte of the frame being sent leaves the line. -/
  | frameSent
  /-- OFFER_TIMER_EXPIRY (R177): the offer timer expires. -/
  | offerTimerExpiry
  /-- JOIN_ACCEPT (R178): town frame; payload: town time, grant, heartbeat period. -/
  | joinAccept (payload : List Byte)
  /-- HEARTBEAT (R179): town frame; payload: credit return. -/
  | heartbeat (payload : List Byte)
  /-- HEARTBEAT_TIMER_EXPIRY (R180): the heartbeat timer expires. -/
  | heartbeatTimerExpiry
  /-- STATUS_TIMER_EXPIRY (R180): the status timer expires. -/
  | statusTimerExpiry
  /-- INVALID_REQUEST (R183): town frame of a kind that names no request. -/
  | invalidRequest (kind tag : Byte) (payload : List Byte)
  /-- LOOK_UP_BY_HANDLE (R184): town request; payload: slot, generation. -/
  | lookUpByHandle (tag : Byte) (payload : List Byte)
  /-- LOOK_UP_BY_KEY (R184): town request; payload: class, number, kind. -/
  | lookUpByKey (tag : Byte) (payload : List Byte)
  /-- PAGE (R184): town request; payload: start slot, count. -/
  | page (tag : Byte) (payload : List Byte)
  /-- SUMMARY (R185): town request; no payload. -/
  | summary (tag : Byte) (payload : List Byte)
  /-- QUIET_ASK (R186): town request; no payload. -/
  | quietAsk (tag : Byte) (payload : List Byte)
  /-- WAKE (R187): town frame; no payload. -/
  | wake (payload : List Byte)
  /-- LOSS_TIMER_EXPIRY (R188): the loss timer expires. -/
  | lossTimerExpiry
  /-- READ_LINK (R190): panel command. -/
  | readLink
  /-- LOAD_SETTINGS (R193): panel command; field identifier and value. -/
  | loadSettings (sec field : Byte) (value : BitVec 32)
  /-- READ_SETTINGS (R193): panel command; set and field identifier. -/
  | readSettings (which sec field : Byte)
  /-- DISCARD_SETTINGS (R193): panel command. -/
  | discardSettings
  /-- COMMIT_SETTINGS (R194): panel command. -/
  | commitSettings
  /-- STORE_WRITE_REPORT (R196): the store reports the write complete and verified, or failed. -/
  | storeWriteReport (complete : Bool)
  /-- STORE_TIMEOUT_EXPIRY (R196): the store time-out expires. -/
  | storeTimeoutExpiry
  /-- CLOCK_TICK (R197): 10 ms of uptime pass. -/
  | clockTick
  /-- SET_CLOCK (R197): panel command. -/
  | setClock (seconds : BitVec 32) (ticks : Byte)
  /-- READ_CLOCK (R197): panel command. -/
  | readClock
  /-- COLD_START (R198): power-on. -/
  | coldStart
  /-- COMMAND_CODE_WRITE (R156): write strobe, A0 = 1, outside PARAMETERS. -/
  | commandCodeWrite (byte : Byte)
  /-- BYTE_RECEIVED (R174): a byte arrives on the town link. -/
  | byteReceived (byte : Byte)
  deriving DecidableEq, Repr

end Sys2Proof
end

