-- ==== Sys2Proof/Config.lean ====
section
/-!
DEFINITION. The values the manual leaves open: constants with no body, so that no proof can rest on one of them.
-/

namespace Sys2Proof.Config

/-- Value of the 48-bit change order count after its largest value, from the value it stood at. R123 gives the width
and the step, and says only that the count would take 89,000 years to fill (assumption 15). -/
opaque orderAfterFull : Nat → BitVec 48

/-- Whether a remaining time that is not a whole number of tenths is shown rounded up, from the time in 10 ms ticks.
R117 asks for tenths of a second and names no rounding (assumption 16). -/
opaque tenthsRoundUp : Nat → Bool

/-- Whether an age that is not a whole number of seconds is shown rounded up, from the age in 10 ms ticks. R57 asks for
seconds and names no rounding (assumption 16). -/
opaque ageRoundUp : Nat → Bool

end Sys2Proof.Config
end

