-- ==== Sys2Proof/Machine/Catalogue.lean ====
section
/-!
DEFINITION. The kind catalogue of section 7.1, the source classes of section 4.4, severities, record states and the
outcome codes of section 4.6, with their codes (R200).
-/

namespace Sys2Proof.Machine

/-- Severities in ascending order (section 4.5). -/
inductive Severity
  | advisory | minor | major | critical
  deriving DecidableEq, Repr

/-- Source classes (section 4.4). -/
inductive SourceClass
  | station | well | sensor | pump | screen | weir | power | link | panel
  deriving DecidableEq, Repr

/-- The kinds of condition (section 7.1). -/
inductive Kind
  | acquisitionFault | settingsFault | storeWriteFail | tableSaturated | sensorFault | wellDisagree | floatMode
  | highLevel | highHigh | storm | spilling | screenBlocked | rakeJam | rakeOverload | rakeTravel | rakeHeld
  | pumpThermal | pumpTrip | pumpFailStart | pumpFailStop | pumpSeal | pumpHeadBlocked | pumpStartsLimit
  | pumpInhibited | mainsFail | powerShed | noPower | linkLost | linkProtocol | drawdown | panelPosted
  deriving DecidableEq, Repr

/-- Lifecycle of a condition record (section 7.3). -/
inductive RecState
  | raised | acked | returned | dormant
  deriving DecidableEq, Repr

/-- The party whose acknowledgement was taken last (section 7.3). -/
inductive Party
  | nobody | panel | town
  deriving DecidableEq, Repr

/-- Outcome codes (section 4.6). -/
inductive ReplyCode
  | done | already | staleHandle | notFound | notDormant | notShelvable | outOfRange | wrongState | suppressed
  | invalidCommand | overrun | terminated | settingsRejected | storeFail | refused
  deriving DecidableEq, Repr

def Severity.code : Severity → Nat
  | .advisory => 0 | .minor => 1 | .major => 2 | .critical => 3

/-- The severity a code names (R200), or none. -/
def severityOf? : Nat → Option Severity
  | 0 => some .advisory | 1 => some .minor | 2 => some .major | 3 => some .critical
  | _ => none

/-- "At or above a severity" (section 4.5). -/
def Severity.atLeast (s t : Severity) : Bool := t.code ≤ s.code

def SourceClass.code : SourceClass → Nat
  | .station => 0 | .well => 1 | .sensor => 2 | .pump => 3 | .screen => 4 | .weir => 5 | .power => 6 | .link => 7
  | .panel => 8

def SourceClass.all : List SourceClass :=
  [.station, .well, .sensor, .pump, .screen, .weir, .power, .link, .panel]

/-- The class a code names (R200), or none. ANY, 255, names no class. -/
def classOf? (n : Nat) : Option SourceClass := SourceClass.all.find? (fun c => c.code == n)

/-- Whether a source number lies in the class's range (section 4.4). -/
def SourceClass.numberFits (c : SourceClass) (n : Nat) : Bool :=
  match c with
  | .station | .well | .power | .link => n == 0
  | .sensor | .pump => 1 ≤ n && n ≤ 6
  | .screen | .weir => 1 ≤ n && n ≤ 2
  | .panel => n ≤ 255

def Kind.all : List Kind :=
  [.acquisitionFault, .settingsFault, .storeWriteFail, .tableSaturated, .sensorFault, .wellDisagree, .floatMode,
   .highLevel, .highHigh, .storm, .spilling, .screenBlocked, .rakeJam, .rakeOverload, .rakeTravel, .rakeHeld,
   .pumpThermal, .pumpTrip, .pumpFailStart, .pumpFailStop, .pumpSeal, .pumpHeadBlocked, .pumpStartsLimit,
   .pumpInhibited, .mainsFail, .powerShed, .noPower, .linkLost, .linkProtocol, .drawdown, .panelPosted]

/-- Code of a kind in the catalogue (section 7.1). -/
def Kind.code : Kind → Nat
  | .acquisitionFault => 1 | .settingsFault => 2 | .storeWriteFail => 3 | .tableSaturated => 4 | .sensorFault => 5
  | .wellDisagree => 6 | .floatMode => 7 | .highLevel => 8 | .highHigh => 9 | .storm => 10 | .spilling => 11
  | .screenBlocked => 12 | .rakeJam => 13 | .rakeOverload => 14 | .rakeTravel => 15 | .rakeHeld => 16
  | .pumpThermal => 17 | .pumpTrip => 18 | .pumpFailStart => 19 | .pumpFailStop => 20 | .pumpSeal => 21
  | .pumpHeadBlocked => 22 | .pumpStartsLimit => 23 | .pumpInhibited => 24 | .mainsFail => 25 | .powerShed => 26
  | .noPower => 27 | .linkLost => 28 | .linkProtocol => 29 | .drawdown => 30 | .panelPosted => 31

/-- The kind a code names, or none. -/
def kindOf? (n : Nat) : Option Kind := Kind.all.find? (fun k => k.code == n)

/-- Source class of a kind (section 7.1). -/
def Kind.cls : Kind → SourceClass
  | .acquisitionFault | .settingsFault | .storeWriteFail | .tableSaturated | .storm | .drawdown => .station
  | .sensorFault => .sensor
  | .wellDisagree | .floatMode | .highLevel | .highHigh => .well
  | .spilling => .weir
  | .screenBlocked | .rakeJam | .rakeOverload | .rakeTravel | .rakeHeld => .screen
  | .pumpThermal | .pumpTrip | .pumpFailStart | .pumpFailStop | .pumpSeal | .pumpHeadBlocked | .pumpStartsLimit
  | .pumpInhibited => .pump
  | .mainsFail | .powerShed | .noPower => .power
  | .linkLost | .linkProtocol => .link
  | .panelPosted => .panel

/-- Severity of a kind (section 7.1). A PANEL-POSTED record carries its post's severity instead (R120). -/
def Kind.severity : Kind → Severity
  | .acquisitionFault | .settingsFault | .highHigh | .pumpFailStop | .noPower => .critical
  | .tableSaturated | .floatMode | .highLevel | .spilling | .screenBlocked | .rakeJam | .rakeOverload | .rakeTravel
  | .pumpThermal | .pumpTrip | .pumpFailStart | .mainsFail | .linkLost => .major
  | .storeWriteFail | .sensorFault | .wellDisagree | .pumpSeal | .pumpHeadBlocked | .powerShed | .linkProtocol => .minor
  | .storm | .rakeHeld | .pumpStartsLimit | .pumpInhibited | .drawdown | .panelPosted => .advisory

/-- Whether the kind is latched (section 7.1). -/
def Kind.latched : Kind → Bool
  | .rakeJam | .rakeOverload | .rakeTravel | .pumpThermal | .pumpTrip | .pumpFailStart | .linkProtocol => true
  | _ => false

/-- Whether the catalogue lets the kind be shelved (section 7.1). -/
def Kind.shelvable : Kind → Bool
  | .storeWriteFail | .sensorFault | .wellDisagree | .storm | .rakeHeld | .pumpSeal | .pumpHeadBlocked
  | .pumpStartsLimit | .pumpInhibited | .powerShed | .linkLost | .linkProtocol | .drawdown | .panelPosted => true
  | _ => false

def RecState.code : RecState → Nat
  | .raised => 0 | .acked => 1 | .returned => 2 | .dormant => 3

def Party.code : Party → Nat
  | .nobody => 0 | .panel => 1 | .town => 2

/-- Outcome code (section 4.6). -/
def ReplyCode.code : ReplyCode → Nat
  | .done => 0 | .already => 1 | .staleHandle => 2 | .notFound => 3 | .notDormant => 4 | .notShelvable => 5
  | .outOfRange => 6 | .wrongState => 7 | .suppressed => 8 | .invalidCommand => 9 | .overrun => 10 | .terminated => 11
  | .settingsRejected => 12 | .storeFail => 13 | .refused => 14

/-- A condition's key (R120). The kind fixes the source class. -/
structure Key where
  kind : Kind
  number : Nat
  deriving DecidableEq, Repr

end Sys2Proof.Machine
end

