-- ==== Sys2Proof/Machine/Operands.lean ====
section
/-!
DEFINITION. How the bytes of a command or a request are read: the command code table, byte order, and the asset
numbers and enumerations that a parameter names.
-/

namespace Sys2Proof.Machine

/-- The command codes of section 12.2, with the count of parameter bytes of each. -/
def commandCodes : List (Nat × Nat) :=
  [(0x01, 0), (0x02, 0), (0x03, 0),
   (0x10, 1), (0x11, 1), (0x12, 1), (0x13, 2), (0x14, 6), (0x15, 9),
   (0x20, 1), (0x21, 1), (0x22, 1), (0x23, 3), (0x24, 2), (0x25, 1),
   (0x30, 6), (0x31, 3), (0x32, 2), (0x33, 3), (0x34, 4), (0x35, 2), (0x36, 2), (0x37, 0), (0x38, 11), (0x39, 1),
   (0x3A, 0),
   (0x40, 6), (0x41, 3), (0x42, 0), (0x43, 0),
   (0x50, 5), (0x51, 0), (0x52, 0),
   (0x60, 0), (0x61, 1), (0x62, 0)]

/-- The count of parameter bytes fixed for a code (R156), or none where the code names no command (R157). -/
def parameterCount? (code : Nat) : Option Nat :=
  (commandCodes.find? (fun r => r.1 == code)).map Prod.snd

/-- The frame kinds that name a request (section 12.5): LOOK-UP by handle to QUIET-ASK. -/
def namesRequest (kind : Nat) : Bool := 0x10 ≤ kind && kind ≤ 0x19

/-- The payload length each request's kind requires (section 12.5). -/
def requestLength (kind : Nat) : Nat :=
  match kind with
  | 0x10 => 2
  | 0x11 => 3
  | 0x12 => 2
  | 0x13 => 2
  | 0x14 => 2
  | 0x16 => 1
  | 0x17 => 2
  | 0x18 => 4
  | _ => 0

/-- A number read from its bytes, most significant first (R200). -/
def natOfBytes (bs : List Byte) : Nat := bs.foldl (fun n b => n * 256 + b.toNat) 0

/-- The byte at a place in a list of parameters, as a number. -/
def byteAt (bs : List Byte) (i : Nat) : Nat := (bs.getD i 0).toNat

/-- The number in the given count of bytes from a place on, most significant first (R200). -/
def wordAt (bs : List Byte) (i count : Nat) : Nat := natOfBytes ((bs.drop i).take count)

/-- The pump, channel or position a number names: 1 to 6. -/
def six? : Nat → Option Ix6
  | 1 => some .i1 | 2 => some .i2 | 3 => some .i3 | 4 => some .i4 | 5 => some .i5 | 6 => some .i6
  | _ => none

/-- The screen or weir a number names: 1 or 2. -/
def two? : Nat → Option Ix2
  | 1 => some .i1 | 2 => some .i2
  | _ => none

/-- The class filter of ACKNOWLEDGE ALL and READ CONDITIONS: a class, or ANY (255). None for a code that names no
class. -/
def classFilter? (n : Nat) : Option (Option SourceClass) :=
  if n = 255 then some none else (classOf? n).map some

/-- The key that a class, number and kind name, or none where R142 finds them out of range. -/
def key? (cls number kind : Nat) : Option Key :=
  match classOf? cls, kindOf? kind with
  | some c, some k => if k.cls = c && c.numberFits number then some ⟨k, number⟩ else none
  | _, _ => none

end Sys2Proof.Machine
end

