-- ==== Sys2Proof/Machine/Settings.lean ====
section
/-!
DEFINITION. The settings: eight sections of numbered fields (sections 11.1 and 12.4), their own ranges, the relation
checks of R194 and the factory defaults.
-/

namespace Sys2Proof.Machine

/-- A settings set. Field f of a section is entry f − 1 of its list, so that the field identifiers of section 12.4 are
the layout. A flag is 0 or 1, an enumeration its list order, a lamp assignment and the shelving mask their 32 bits. -/
structure Settings where
  measurement : List Nat
  storage : List Nat
  duty : List Nat
  pumps : List Nat
  power : List Nat
  screens : List Nat
  annunciation : List Nat
  link : List Nat
  deriving DecidableEq, Repr

/-- The fields of a section by its number (section 11.1); no fields for a number that names no section. -/
def Settings.sec (c : Settings) : Nat → List Nat
  | 1 => c.measurement | 2 => c.storage | 3 => c.duty | 4 => c.pumps | 5 => c.power | 6 => c.screens
  | 7 => c.annunciation | 8 => c.link
  | _ => []

/-- A field's value; 0 for an identifier that names no field. -/
def Settings.get (c : Settings) (sec field : Nat) : Nat := (c.sec sec).getD (field - 1) 0

/-- The set with one field's value replaced. -/
def Settings.put (c : Settings) (sec field value : Nat) : Settings :=
  match sec with
  | 1 => { c with measurement := c.measurement.set (field - 1) value }
  | 2 => { c with storage := c.storage.set (field - 1) value }
  | 3 => { c with duty := c.duty.set (field - 1) value }
  | 4 => { c with pumps := c.pumps.set (field - 1) value }
  | 5 => { c with power := c.power.set (field - 1) value }
  | 6 => { c with screens := c.screens.set (field - 1) value }
  | 7 => { c with annunciation := c.annunciation.set (field - 1) value }
  | 8 => { c with link := c.link.set (field - 1) value }
  | _ => c

/-! The parameters by the names the chapters give them. -/

def Settings.balancePeriod (c : Settings) : Nat := c.get 1 1
def Settings.offset (c : Settings) (n : Ix6) : Nat := c.get 1 (1 + n.num)
def Settings.span (c : Settings) (n : Ix6) : Nat := c.get 1 (7 + n.num)
def Settings.agreementBand (c : Settings) : Nat := c.get 1 14
def Settings.highSetpoint (c : Settings) : Nat := c.get 1 15
def Settings.hhSetpoint (c : Settings) : Nat := c.get 1 16

/-- L_i, for i = 0 to 7. -/
def Settings.tableLevel (c : Settings) (i : Nat) : Nat := c.get 2 (1 + i)
/-- V_i, for i = 0 to 7. -/
def Settings.tableVolume (c : Settings) (i : Nat) : Nat := c.get 2 (9 + i)
def Settings.dischargeLip (c : Settings) : Nat := c.get 2 17
def Settings.crest (c : Settings) (w : Ix2) : Nat := c.get 2 (17 + w.num)
def Settings.weirK (c : Settings) (w : Ix2) : Nat := c.get 2 (19 + w.num)
def Settings.separationTime (c : Settings) : Nat := c.get 2 22
def Settings.wetOn (c : Settings) : Nat := c.get 2 23
def Settings.wetOff (c : Settings) : Nat := c.get 2 24
def Settings.stormOn (c : Settings) : Nat := c.get 2 25
def Settings.stormOff (c : Settings) : Nat := c.get 2 26
def Settings.classHold (c : Settings) : Nat := c.get 2 27

def Settings.dutyStart (c : Settings) (k : Ix6) : Nat := c.get 3 k.num
def Settings.dutyStop (c : Settings) (k : Ix6) : Nat := c.get 3 (6 + k.num)
def Settings.pumpOffFloor (c : Settings) : Nat := c.get 3 13
/-- rotation_mode is ON-STOP (0) or FIXED (1). -/
def Settings.rotationFixed (c : Settings) : Bool := c.get 3 14 == 1

/-- The j-th of a pump's eighteen fields. -/
def Settings.pumpField (c : Settings) (p : Ix6) (j : Nat) : Nat := c.get 4 (18 * (p.num - 1) + j)
def Settings.pumpUnits (c : Settings) (p : Ix6) : Nat := c.pumpField p 1
/-- H_i, for i = 0 to 4. -/
def Settings.curveHead (c : Settings) (p : Ix6) (i : Nat) : Nat := c.pumpField p (2 + i)
/-- Q_i, for i = 0 to 4. -/
def Settings.curveFlow (c : Settings) (p : Ix6) (i : Nat) : Nat := c.pumpField p (7 + i)
def Settings.startsPerHour (c : Settings) (p : Ix6) : Nat := c.pumpField p 12
def Settings.headBlockedDelay (c : Settings) (p : Ix6) : Nat := c.pumpField p 13
def Settings.headHysteresis (c : Settings) (p : Ix6) : Nat := c.pumpField p 14
def Settings.startWindow (c : Settings) (p : Ix6) : Nat := c.pumpField p 15
def Settings.minRun (c : Settings) (p : Ix6) : Nat := c.pumpField p 16
def Settings.stopWindow (c : Settings) (p : Ix6) : Nat := c.pumpField p 17
def Settings.runDown (c : Settings) (p : Ix6) : Nat := c.pumpField p 18

def Settings.mainsUnits (c : Settings) : Nat := c.get 5 1
def Settings.genUnits (c : Settings) : Nat := c.get 5 2
def Settings.staggerTime (c : Settings) : Nat := c.get 5 3

/-- The j-th of a screen's thirteen fields. -/
def Settings.screenField (c : Settings) (n : Ix2) (j : Nat) : Nat := c.get 6 (13 * (n.num - 1) + j)
def Settings.maxTravel (c : Settings) (n : Ix2) : Nat := c.screenField n 1
def Settings.gripDwell (c : Settings) (n : Ix2) : Nat := c.screenField n 2
def Settings.dischargeDwell (c : Settings) (n : Ix2) : Nat := c.screenField n 3
def Settings.jamTime (c : Settings) (n : Ix2) : Nat := c.screenField n 4
def Settings.reverseTime (c : Settings) (n : Ix2) : Nat := c.screenField n 5
def Settings.jamRetries (c : Settings) (n : Ix2) : Nat := c.screenField n 6
def Settings.triggerLevel (c : Settings) (n : Ix2) : Nat := c.screenField n 7
def Settings.blockedLevel (c : Settings) (n : Ix2) : Nat := c.screenField n 8
def Settings.intervalDry (c : Settings) (n : Ix2) : Nat := c.screenField n 9
def Settings.intervalWet (c : Settings) (n : Ix2) : Nat := c.screenField n 10
def Settings.intervalStorm (c : Settings) (n : Ix2) : Nat := c.screenField n 11
def Settings.finishDefault (c : Settings) (n : Ix2) : Nat := c.screenField n 12
def Settings.rakeUnits (c : Settings) (n : Ix2) : Nat := c.screenField n 13

/-- max_travel plus the margin: max_travel / 20, rounded down, or 10 pulses if that is larger (section 6.1). -/
def Settings.travelLimit (c : Settings) (n : Ix2) : Nat := c.maxTravel n + max (c.maxTravel n / 20) 10

def Settings.hornThreshold (c : Settings) : Nat := c.get 7 1
/-- The 32 bits of lamp n's assignment, n from 1 to 16. -/
def Settings.lamp (c : Settings) (n : Nat) : Nat := c.get 7 (1 + n)
def Settings.shelvingMask (c : Settings) : Nat := c.get 7 18

/-- Whether the shelving mask permits a kind: bit k − 1 for kind code k (section 12.4). -/
def Settings.permitsShelving (c : Settings) (k : Kind) : Bool := c.shelvingMask.testBit (k.code - 1)

def Settings.linkEnable (c : Settings) : Bool := c.get 8 1 == 1
def Settings.linkBaud (c : Settings) : Nat := c.get 8 2
def Settings.stationId (c : Settings) : Nat := c.get 8 3
def Settings.acceptTownTime (c : Settings) : Bool := c.get 8 4 == 1

/-! A lamp assignment's four bytes: type, class, number or code, kind (section 12.4). -/

def lampType (v : Nat) : Nat := v / 0x1000000 % 256
def lampClass (v : Nat) : Nat := v / 0x10000 % 256
def lampNumber (v : Nat) : Nat := v / 0x100 % 256
def lampKind (v : Nat) : Nat := v % 256

/-! Ranges. -/

/-- A field's own range, as its parameter table gives it. -/
inductive FieldRange
  | between (low high : Nat)
  | among (values : List Nat)
  | lampAssignment
  deriving DecidableEq, Repr

/-- Whether a value lies in a range. A lamp assignment's type is 0 to 3, and a selector's class and kind name a class and
a kind (assumption 25); the relation of the two, and the numbers, are checked at commit (R194). -/
def FieldRange.holds (r : FieldRange) (v : Nat) : Bool :=
  match r with
  | .between low high => low ≤ v && v ≤ high
  | .among values => values.contains v
  | .lampAssignment =>
    lampType v ≤ 3 && v < 0x100000000 &&
      (lampType v ≠ 1 || ((classOf? (lampClass v)).isSome && (kindOf? (lampKind v)).isSome))

/-- Ranges of one pump's eighteen fields (sections 2.12, 3.15, 4.10). -/
def pumpFieldRanges : List FieldRange :=
  [.between 1 15] ++ List.replicate 5 (.between 0 16000) ++ List.replicate 5 (.between 0 5000) ++
  [.between 1 12, .between 10 300, .between 50 1000, .between 2 30, .between 30 1800, .between 2 30, .between 10 600]

/-- Ranges of one screen's thirteen fields (sections 6.14, 5.6). -/
def screenFieldRanges : List FieldRange :=
  [.between 100 20000, .between 1 10, .between 2 30, .between 1 10, .between 1 10, .between 0 5, .between 20 1000,
   .between 50 2000, .between 5 240, .between 2 120, .between 1 60, .between 1 5, .between 1 15]

/-- Ranges of the fields of each section, in field order. -/
def sectionRanges : Nat → List FieldRange
  | 1 => [.between 1 10] ++ List.replicate 6 (.between 0 16000) ++ List.replicate 6 (.between 500 16000) ++
      [.between 20 500, .between 100 16000, .between 100 16000]
  | 2 => List.replicate 8 (.between 0 16000) ++ List.replicate 8 (.between 0 4294967295) ++
      [.between 0 16000, .between 0 16000, .between 0 16000, .between 1 65535, .between 1 65535, .between 60 7200] ++
      List.replicate 4 (.between 0 65535) ++ [.between 60 3600]
  | 3 => List.replicate 13 (.between 0 16000) ++ [.between 0 1]
  | 4 => (List.replicate 6 pumpFieldRanges).flatten
  | 5 => [.between 0 60, .between 0 60, .between 2 120]
  | 6 => screenFieldRanges ++ screenFieldRanges
  | 7 => [.between 0 3] ++ List.replicate 16 .lampAssignment ++ [.between 0 0x7FFFFFFF]
  | 8 => [.between 0 1, .among [9600, 19200, 38400, 57600, 115200], .between 0 65535, .between 0 1]
  | _ => []

/-- The range of the field an identifier names, or none where it names no field. -/
def fieldRange? (sec field : Nat) : Option FieldRange :=
  if field = 0 then none else (sectionRanges sec)[field - 1]?

/-- LOAD SETTINGS on a set (R193): none where the identifier names no field or the value is outside its range. -/
def Settings.load? (c : Settings) (sec field value : Nat) : Option Settings :=
  match fieldRange? sec field with
  | some r => if r.holds value then some (c.put sec field value) else none
  | none => none

/-! The relation checks of R194, each with the field identifier it returns. -/

/-- Check 4: the class thresholds. -/
def Settings.classChecks (c : Settings) : List ((Nat × Nat) × Bool) :=
  [((2, 23), c.wetOff < c.wetOn), ((2, 26), c.wetOn ≤ c.stormOff), ((2, 25), c.stormOff < c.stormOn)]

/-- Check 7 for one pump: its curve heads, then its curve flows. -/
def Settings.curveChecks (c : Settings) (p : Ix6) : List ((Nat × Nat) × Bool) :=
  [1, 2, 3, 4].map (fun i => ((4, 18 * (p.num - 1) + 2 + i), decide (c.curveHead p (i - 1) < c.curveHead p i))) ++
  [1, 2, 3, 4].map (fun i => ((4, 18 * (p.num - 1) + 7 + i), decide (c.curveFlow p i ≤ c.curveFlow p (i - 1))))

/-- Check 8 for one screen. -/
def Settings.screenChecks (c : Settings) (n : Ix2) : List ((Nat × Nat) × Bool) :=
  [((6, 13 * (n.num - 1) + 8), c.triggerLevel n < c.blockedLevel n),
   ((6, 13 * (n.num - 1) + 10), c.intervalWet n ≤ c.intervalDry n),
   ((6, 13 * (n.num - 1) + 11), c.intervalStorm n ≤ c.intervalWet n)]

/-- Check 9 for one assignment: a selector's kind belongs to its class and its number is 0 or in the class's range; a
PUMP-RUNNING number is 1 to 6. -/
def lampHolds (v : Nat) : Bool :=
  match lampType v with
  | 1 =>
    match classOf? (lampClass v), kindOf? (lampKind v) with
    | some c, some k => k.cls = c && (lampNumber v = 0 || c.numberFits (lampNumber v))
    | _, _ => false
  | 2 => 1 ≤ lampNumber v && lampNumber v ≤ 6
  | _ => true

/-- Every relation check, in the order of R194. -/
def Settings.relationChecks (c : Settings) : List ((Nat × Nat) × Bool) :=
  [((1, 16), decide (c.highSetpoint < c.hhSetpoint))] ++
  [1, 2, 3, 4, 5, 6, 7].map (fun i => ((2, 1 + i), decide (c.tableLevel (i - 1) < c.tableLevel i))) ++
  [1, 2, 3, 4, 5, 6, 7].map (fun i => ((2, 9 + i), decide (c.tableVolume (i - 1) ≤ c.tableVolume i))) ++
  c.classChecks ++
  [2, 3, 4, 5, 6].map (fun k => ((3, k), decide (c.get 3 (k - 1) < c.get 3 k))) ++
  [1, 2, 3, 4, 5, 6].map (fun k => ((3, 6 + k), decide (c.get 3 (6 + k) < c.get 3 k))) ++
  (Ix6.all.map c.curveChecks).flatten ++
  (Ix2.all.map c.screenChecks).flatten ++
  (List.range 16).map (fun i => ((7, 2 + i), lampHolds (c.lamp (i + 1))))

/-- The field identifier of the first relation check that fails (R194), or none where all pass. -/
def Settings.firstBroken? (c : Settings) : Option (Nat × Nat) :=
  (c.relationChecks.find? (fun r => !r.2)).map Prod.fst

/-- Every field's own range check, in the order of the identifiers. -/
def Settings.rangeChecks (c : Settings) : List ((Nat × Nat) × Bool) :=
  ([1, 2, 3, 4, 5, 6, 7, 8].map (fun sec =>
    (sectionRanges sec).mapIdx (fun i r => ((sec, i + 1), r.holds (c.get sec (i + 1)))))).flatten

/-- The first check of a loaded store image that fails (R198): the range checks, then the relation checks
(assumption 26). -/
def Settings.firstFault? (c : Settings) : Option (Nat × Nat) :=
  ((c.rangeChecks ++ c.relationChecks).find? (fun r => !r.2)).map Prod.fst

/-! The factory defaults: the defaults of the parameter tables (section 11.1). -/

/-- Defaults of one pump's fields. -/
def factoryPump : List Nat :=
  [8, 0, 1000, 2000, 3000, 4000, 900, 820, 700, 520, 0, 6, 60, 200, 5, 120, 5, 60]

/-- Defaults of one screen's fields. -/
def factoryScreen : List Nat := [4000, 2, 5, 3, 2, 3, 80, 300, 60, 15, 4, 2, 3]

/-- A condition selector for any source number of a class. -/
def lampSelector (k : Kind) : Nat := 0x1000000 + k.cls.code * 0x10000 + k.code

/-- The factory lamp map (section 8.4). -/
def factoryLamps : List Nat :=
  [1, 2, 3, 4, 5, 6].map (fun n => 0x2000000 + n * 0x100) ++
  [.highHigh, .highLevel, .spilling, .screenBlocked, .mainsFail, .pumpFailStop, .rakeJam, .linkLost].map lampSelector ++
  [0, 0]

/-- The default shelving mask: permit for each kind shelvable in the catalogue (section 7.13). -/
def factoryMask : Nat :=
  (Kind.all.filter Kind.shelvable).foldl (fun m k => m + 2 ^ (k.code - 1)) 0

/-- The factory defaults. -/
def Settings.factory : Settings where
  measurement := [2, 0, 0, 0, 0, 0, 0, 6000, 6000, 6000, 6000, 6000, 6000, 60, 3500, 4500]
  storage := [0, 500, 1000, 2000, 3000, 4000, 5000, 6000,
    0, 20000, 45000, 105000, 175000, 255000, 345000, 445000,
    2800, 2400, 4800, 477, 477, 600, 300, 200, 2500, 1500, 600]
  duty := [1800, 2100, 2400, 2700, 3000, 3300, 1200, 1500, 1800, 2100, 2400, 2700, 1000, 0]
  pumps := (List.replicate 6 factoryPump).flatten
  power := [40, 20, 10]
  screens := factoryScreen ++ factoryScreen
  annunciation := [1] ++ factoryLamps ++ [factoryMask]
  link := [0, 9600, 1, 1]

end Sys2Proof.Machine
end

