-- ==== Sys2Proof/Machine/State.lean ====
section
/-!
DEFINITION. The state of the part, block by block as section 2.2 divides it, with the queue of waiting commands, and the
state right after a cold start. Every field is plain data.
-/

namespace Sys2Proof.Machine

/-- Why the part would stop. The manual stops the part for nothing: every command has an effect, so no command raises a
fault, which is safe. -/
inductive Fault
  deriving DecidableEq, Repr

/-- Why a command has no meaning in the model. -/
inductive Refusal
  /-- Raised by the dispatch for a command whose meaning is not written; no arm raises it. It is safe: the run stops. -/
  | notModelled (mnemonic : String)
  deriving DecidableEq, Repr

/-! Time -/

/-- A reading of the uptime or of the station clock: seconds and ticks of 10 ms (R197). -/
structure Stamp where
  secs : Nat
  ticks : Nat
  deriving DecidableEq, Repr

/-- A timer on uptime: the ticks of 10 ms it has left, or none while it is stopped. -/
abbrev Timer := Option Nat

/-- Uptime, station clock and clock-set flag (R197). -/
structure Clock where
  uptime : Stamp
  station : Stamp
  set : Bool
  deriving DecidableEq, Repr

/-- An input line, its debounced state and its debounce timer (R8, R38, R60, R81, R96). True is made, present or
abnormal. -/
structure Debounced where
  line : Bool
  state : Bool
  timer : Timer
  deriving DecidableEq, Repr

/-! Level Acquisition -/

/-- Status of a channel's last sample (R1). -/
inductive SampleStatus
  | valid | under | broken | over | discarded | none
  deriving DecidableEq, Repr

/-- Status of a channel's period value (R6). -/
inductive PeriodStatus
  | valid | stale | none
  deriving DecidableEq, Repr

/-- One external converter channel (sections 1.1 to 1.3). The period value is the held value while the period status is
VALID or STALE (R6). -/
structure Channel where
  raw : Nat
  sample : SampleStatus
  sum : Nat
  count : Nat
  period : PeriodStatus
  held : Option Nat
  invalid : Nat
  valid : Nat
  /-- Cause of SENSOR-FAULT (R7). -/
  fault : Bool
  /-- offset_n and span_n of the period in progress (R15). -/
  offset : Nat
  span : Nat
  deriving DecidableEq, Repr

/-- The level mode (R11). -/
inductive LevelMode
  | level | float
  deriving DecidableEq, Repr

/-- Level Acquisition (chapter 1). -/
structure Level where
  channels : Six Channel
  /-- Channel 7, REFERENCE: last raw sample and its status. -/
  refRaw : Nat
  refSample : SampleStatus
  /-- Consecutive discarded and good rounds (R3). -/
  discarded : Nat
  good : Nat
  /-- Time to the next round-complete event (R1, R17). -/
  roundTimer : Timer
  /-- Rounds completed in the period in progress, and the P that sets its length (R5). -/
  rounds : Nat
  periodSecs : Nat
  /-- Whether a period end has been taken since cold start (R11, R149). -/
  anyPeriodEnd : Bool
  low : Debounced
  high : Debounced
  highHigh : Debounced
  wellLevel : Option Nat
  mode : LevelMode
  acquisitionFault : Bool
  wellDisagree : Bool
  floatMode : Bool
  highLevel : Bool
  /-- The two parts of the cause of HIGH-HIGH, and the cause (R13). -/
  hhFloatPart : Bool
  hhLevelPart : Bool
  highHighCause : Bool
  deriving DecidableEq, Repr

/-! Station Balance -/

/-- The inflow class (R25). -/
inductive InflowClass
  | dry | wet | storm
  deriving DecidableEq, Repr

/-- Status of a weir's flow for the period (R29). -/
inductive FlowStatus
  | current | saturated | notComputed
  deriving DecidableEq, Repr

/-- A weir's spill state (R30). -/
inductive SpillState
  | dry | spilling | settling
  deriving DecidableEq, Repr

/-- A weir's tally (section 2.9). -/
structure Tally where
  volume : Nat
  seconds : Nat
  episodes : Nat
  peak : Nat
  incomplete : Bool
  deriving DecidableEq, Repr

/-- A weir record. The cause of SPILLING is present while the spill state is not DRY (R30, R31). -/
structure Weir where
  head : Nat
  root : Nat
  flow : Nat
  status : FlowStatus
  spill : SpillState
  separation : Timer
  tally : Tally
  deriving DecidableEq, Repr

/-- Station Balance (chapter 2). The pumps' computed flows and head-limited marks stand in the pump records. The cause of
STORM is present while the class is STORM (R27). -/
structure Balance where
  vPrev : Option Nat
  volume : Option Nat
  aboveTable : Bool
  head : Nat
  headStale : Bool
  inflow : Nat
  inflowStale : Bool
  cls : InflowClass
  hold : Nat
  weirs : Two Weir
  deriving DecidableEq, Repr

/-! Pumps -/

/-- A pump's selector (R38). -/
inductive Selector
  | off | hand | auto
  deriving DecidableEq, Repr

/-- A pump's sequencer state (section 4.2). -/
inductive Seq
  | off | hand | idle | queued | starting | running | stopping | runOn
  deriving DecidableEq, Repr

/-- A pump's lockout set (section 3.1). -/
structure PumpLocks where
  thermal : Bool
  trip : Bool
  failStart : Bool
  panelInhibit : Bool
  townInhibit : Bool
  deriving DecidableEq, Repr

/-- The acknowledged marks of a pump's latched reasons (chapter 4). -/
structure PumpAcks where
  thermal : Bool
  trip : Bool
  failStart : Bool
  deriving DecidableEq, Repr

/-- One pump: its record (section 3.1), its part of the Duty Controller and its part of the Sequencer (chapter 4). The
causes of its conditions are states of it: PUMP-THERMAL, PUMP-TRIP and PUMP-FAIL-START are the reasons of the lockout
set, PUMP-FAIL-STOP is RUN-ON, PUMP-SEAL the debounced seal input, PUMP-HEAD-BLOCKED the head-blocked mark,
PUMP-STARTS-LIMIT the starts-limited state and PUMP-INHIBITED either inhibit mark. -/
structure Pump where
  hand : Debounced
  auto : Debounced
  selector : Selector
  seq : Seq
  contactor : Bool
  locks : PumpLocks
  acks : PumpAcks
  feedback : Debounced
  thermal : Debounced
  sealProbe : Debounced
  startWindow : Timer
  minRun : Timer
  stopWindow : Timer
  /-- The stop window's outcome for the stop in hand: done, or running. -/
  stopDone : Bool
  runDown : Timer
  /-- The granted units while the pump holds a claim (R63, R84). -/
  claim : Option Nat
  /-- Uptime of the last entry to RUNNING (R64). -/
  runningSince : Stamp
  headLimited : Bool
  headBlocked : Bool
  headTimer : Timer
  history : List Stamp
  startsLimited : Bool
  runSeconds : Nat
  starts : Nat
  runTicks : Nat
  flow : Nat
  called : Bool
  panelMark : Bool
  townMark : Bool
  shedMark : Bool
  deriving DecidableEq, Repr

/-- The Duty Controller's state beside the pump records (chapter 3). A drawdown is active while its timer runs. -/
structure Duty where
  ladder : List Ix6
  positions : Six Bool
  wanted : Nat
  drawdown : Nat
  drawdownTimer : Timer
  deriving DecidableEq, Repr

/-! Power Allocator -/

/-- The power source (R81). -/
inductive Source
  | mains | generator | none
  deriving DecidableEq, Repr

/-- An entry of the claim queue (R85). -/
inductive Claimant
  | pump (p : Ix6)
  | rake (n : Ix2)
  deriving DecidableEq, Repr

/-- The Power Allocator (chapter 5). Claims and shed marks stand with their pumps and rakes; budget, external load,
available and free are formed from their terms whenever they are read (R83), and the start gate from the pumps' states
(R87). The causes of MAINS-FAIL and NO-POWER follow the source, that of POWER-SHED the shed marks. -/
structure Power where
  mainsOk : Debounced
  genOn : Debounced
  transferReq : Debounced
  source : Source
  transferring : Bool
  ack : Bool
  queue : List Claimant
  stagger : Timer
  deriving DecidableEq, Repr

/-! Rakes -/

/-- A rake's state (section 6.3). -/
inductive RakeState
  | unhomed | idle | waiting | homing | descending | gripping | ascending | discharging | reversing | positioning
  | held | paused | locked
  deriving DecidableEq, Repr

/-- The operation in hand (section 6.1). -/
inductive Operation
  | none
  | cycle
  | home (automatic : Bool)
  | position (target : Nat)
  | finish (remaining : Nat)
  deriving DecidableEq, Repr

/-- A direction of carriage travel. -/
inductive Dir
  | down | up
  deriving DecidableEq, Repr

/-- Outcome of an operation (section 6.12). -/
inductive RakeOutcome
  | complete | jammed | overload | travel | superseded
  deriving DecidableEq, Repr

/-- A completion record (section 6.12). The operation is kept by its code (section 12.3). -/
structure Completion where
  overwritten : Bool
  operation : Nat
  outcome : RakeOutcome
  position : Nat
  cycles : Nat
  time : Stamp
  deriving DecidableEq, Repr

/-- The three lockout reasons of a rake, or their acknowledged marks (section 6.11). -/
structure RakeLocks where
  jam : Bool
  overload : Bool
  travel : Bool
  deriving DecidableEq, Repr

/-- One screen and its rake: the screen record (section 6.1), its inputs, outputs and timers. The causes of its
conditions are states of it: SCREEN-BLOCKED is BLOCKED, RAKE-HELD is HELD, RAKE-JAM, RAKE-OVERLOAD and RAKE-TRAVEL are
the reasons of the lockout set. -/
structure Screen where
  home : Debounced
  bottom : Debounced
  overload : Debounced
  differential : Nat
  diffStale : Bool
  blocked : Bool
  rake : RakeState
  homed : Bool
  position : Nat
  op : Operation
  /-- The stage interrupted by a shed, while PAUSED. -/
  saved : Option RakeState
  leg : Dir
  upCount : Nat
  /-- The travel limit the leg began with (R118). -/
  legLimit : Nat
  interrupted : Dir
  retries : Nat
  cycles : Nat
  pending : Bool
  locks : RakeLocks
  acks : RakeLocks
  completion : Option Completion
  /-- Uptime seconds of the end of the last completed cycle. -/
  lastCycleEnd : Nat
  jamTimer : Timer
  dwell : Timer
  reverse : Timer
  claim : Option Nat
  shedMark : Bool
  up : Bool
  down : Bool
  grip : Bool
  /-- The model's own: the rake has entered IDLE at the event in hand, and its test waits for the grant attempt that the
  release of its claim makes (R84, R102, assumption 44). -/
  untested : Bool
  deriving DecidableEq, Repr

/-! Condition Table -/

/-- A condition record (section 7.3). Its handle is its slot and the slot's generation. -/
structure Record where
  key : Key
  severity : Severity
  state : RecState
  shelved : Bool
  shelf : Timer
  ackBy : Party
  raiseCount : Nat
  firstRaised : Stamp
  lastChange : Stamp
  changeOrder : Nat
  extra : List Byte
  townCurrent : Bool
  deriving DecidableEq, Repr

/-- A slot: its generation, the record seated in it, and the change order of its gone-owed mark (R121, R130). -/
structure Slot where
  gen : Nat
  record : Option Record
  goneOwed : Option Nat
  deriving DecidableEq, Repr

/-- An entry of the waiting list (R133). -/
structure Waiting where
  key : Key
  severity : Severity
  extra : List Byte
  time : Stamp
  deriving DecidableEq, Repr

/-- TABLE-SATURATED's four suppression counts (R132). -/
structure Suppressions where
  advisory : Nat
  minor : Nat
  major : Nat
  critical : Nat
  deriving DecidableEq, Repr

/-- The Condition Table (chapter 7). The seated count of the header is the count of slots that hold a record. -/
structure Table where
  slots : List Slot
  waiting : List Waiting
  raisedSinceClear : Nat
  lastClear : Stamp
  changeOrder : Nat
  /-- Cause of TABLE-SATURATED. -/
  saturated : Bool
  suppressed : Suppressions
  deriving DecidableEq, Repr

/-! Annunciator -/

/-- What a lamp shows (section 8.4). -/
inductive Aspect
  | off | steady | flash
  deriving DecidableEq, Repr

/-- The Annunciator (chapter 8). -/
structure Annunciator where
  silence : Bool
  horn : Bool
  beacon : Bool
  /-- The common-fault relay, energised. -/
  relay : Bool
  /-- The aspects of lamps 1 to 16. -/
  lamps : List Aspect
  /-- The flash phase: whether flashing lamps are driven on. -/
  flashOn : Bool
  deriving DecidableEq, Repr

/-! Panel Port -/

/-- The six attention flags, or their enables (R167). -/
structure Attention where
  condition : Bool
  screen : Bool
  power : Bool
  link : Bool
  settings : Bool
  balance : Bool
  deriving DecidableEq, Repr

/-- The record stream (section 9.5): the filter, the next slot to examine, the slot and the bytes not yet taken of the
record in progress, and the count of whole records delivered. -/
structure Stream where
  maximum : Nat
  severity : Severity
  states : Nat
  shelved : Bool
  cls : Option SourceClass
  nextSlot : Nat
  slot : Nat
  left : List Byte
  delivered : Nat
  deriving DecidableEq, Repr

/-- The phase of the port, with the command, stream or result in hand (R155). -/
inductive Phase
  | idle
  | parameters (code : Byte) (received : List Byte)
  | executing
  | streaming (stream : Stream)
  | result (left : List Byte)
  deriving DecidableEq, Repr

/-- The Panel Port (chapter 9). -/
structure Port where
  phase : Phase
  protocol : Bool
  /-- The byte window timer (R164). -/
  window : Timer
  flags : Attention
  enables : Attention
  /-- The ATTN output (R169). -/
  attn : Bool
  /-- D0 to D7 as the last data read left them (R154). -/
  dataOut : Byte
  /-- RESET# asserted, and its timer (R171). -/
  resetLine : Bool
  resetTimer : Timer
  deriving DecidableEq, Repr

/-! Town Link -/

/-- The link's state (R176). -/
inductive LinkState
  | offline | joining | online | quiet | lost
  deriving DecidableEq, Repr

/-- A frame: kind, tag and payload (section 10.1). -/
structure Frame where
  kind : Byte
  tag : Byte
  payload : List Byte
  deriving DecidableEq, Repr

/-- A request slot in use: the request's tag, the payload of its response, and whether the response is on the line. -/
structure Request where
  tag : Byte
  response : List Byte
  onLine : Bool
  deriving DecidableEq, Repr

/-- The Town Link (chapter 10). -/
structure Link where
  state : LinkState
  /-- The baud rate in force (R191). -/
  baud : Nat
  /-- The bytes taken after the start byte of the frame in assembly, or none while hunting (R174). -/
  assembly : Option (List Byte)
  interByte : Timer
  /-- The frame being sent; none while the transmitter is free (R175). -/
  sending : Option Frame
  offersOwed : Nat
  wakesOwed : Nat
  statusOwed : Bool
  /-- The request slots in use, in the order the requests arrived (R183). -/
  requests : List Request
  grant : Option Nat
  period : Option Nat
  credits : Nat
  heartbeatTimer : Timer
  statusTimer : Timer
  offerTimer : Timer
  lossTimer : Timer
  badFrames : Nat
  /-- Acknowledged mark of LINK-PROTOCOL (R189). -/
  protocolAck : Bool
  /-- Causes of LINK-LOST and LINK-PROTOCOL. -/
  lostCause : Bool
  protocolCause : Bool
  deriving DecidableEq, Repr

/-! Settings Store -/

/-- The Settings Store (chapter 11): running set, staging set, store image with whether its checksum is good, and the
time-out of the store write in hand. -/
structure Store where
  running : Settings
  staging : Settings
  image : Settings
  checksumGood : Bool
  writing : Timer
  /-- Causes of SETTINGS-FAULT and STORE-WRITE-FAIL. -/
  settingsFault : Bool
  writeFail : Bool
  deriving DecidableEq, Repr

/-- What READ SUMMARY, STATUS and SUMMARY show as of the last period end although later events may move it: the debounced
floats (R16), the weirs' spill states (R34) and the duty values (R57, R172). -/
structure Shown where
  low : Bool
  high : Bool
  highHigh : Bool
  spills : Two SpillState
  wanted : Nat
  ladder : List Ix6
  called : Six Bool
  rotationFixed : Bool
  drawdownActive : Bool
  drawdown : Nat
  drawdownMinutes : Nat
  deriving DecidableEq, Repr

/-- The whole part, and the commands that wait for it, first in first out. -/
structure State where
  clock : Clock
  level : Level
  balance : Balance
  pumps : Six Pump
  duty : Duty
  power : Power
  screens : Two Screen
  table : Table
  ann : Annunciator
  port : Port
  link : Link
  store : Store
  shown : Shown
  pending : List Instr
  deriving DecidableEq, Repr

/-! The values after a cold start (R199). -/

/-- The zero of both clocks. -/
def Stamp.zero : Stamp := ⟨0, 0⟩

/-- A line that is open, absent or normal, settled. -/
def Debounced.clear : Debounced := ⟨false, false, none⟩

/-- A vacant slot never seated (R145). -/
def Slot.fresh : Slot := ⟨0, none, none⟩

/-- No flag set, or no enable on. -/
def Attention.none : Attention := ⟨false, false, false, false, false, false⟩

/-- No reason held, or no mark set. -/
def RakeLocks.none : RakeLocks := ⟨false, false, false⟩

/-- Level Acquisition after a cold start (R17), with the floats open and the measurement settings as given. -/
def Level.cold (c : Settings) : Level where
  channels := Six.gen fun n => ⟨0, .none, 0, 0, .none, none, 0, 0, false, c.offset n, c.span n⟩
  refRaw := 0
  refSample := .none
  discarded := 0
  good := 0
  roundTimer := some 10
  rounds := 0
  periodSecs := c.balancePeriod
  anyPeriodEnd := false
  low := .clear
  high := .clear
  highHigh := .clear
  wellLevel := none
  mode := .float
  acquisitionFault := false
  wellDisagree := false
  floatMode := false
  highLevel := false
  hhFloatPart := false
  hhLevelPart := false
  highHighCause := false

/-- A tally with nothing in it (R33, R37). -/
def Tally.zero : Tally := ⟨0, 0, 0, 0, false⟩

/-- Station Balance after a cold start (R37). -/
def Balance.cold : Balance where
  vPrev := none
  volume := none
  aboveTable := false
  head := 0
  headStale := true
  inflow := 0
  inflowStale := true
  cls := .dry
  hold := 0
  weirs := Two.const ⟨0, 0, 0, .notComputed, .dry, none, .zero⟩

/-- A pump after a cold start with every input open (R59, R80). No rule gives the stop window's outcome or the uptime of the
last entry to RUNNING (assumption 33). -/
def Pump.cold : Pump where
  hand := .clear
  auto := .clear
  selector := .off
  seq := .off
  contactor := false
  locks := ⟨false, false, false, false, false⟩
  acks := ⟨false, false, false⟩
  feedback := .clear
  thermal := .clear
  sealProbe := .clear
  startWindow := none
  minRun := none
  stopWindow := none
  stopDone := false
  runDown := none
  claim := none
  runningSince := .zero
  headLimited := false
  headBlocked := false
  headTimer := none
  history := []
  startsLimited := false
  runSeconds := 0
  starts := 0
  runTicks := 0
  flow := 0
  called := false
  panelMark := false
  townMark := false
  shedMark := false

/-- The Duty Controller after a cold start (R59). -/
def Duty.cold : Duty where
  ladder := Ix6.all
  positions := Six.const false
  wanted := 0
  drawdown := 0
  drawdownTimer := none

/-- What the summary shows between a cold start and the first period end: the cold-start values (R17, R37, R59;
assumption 32), with the rotation mode given. -/
def Shown.cold (fixed : Bool) : Shown where
  low := false
  high := false
  highHigh := false
  spills := Two.const .dry
  wanted := 0
  ladder := Ix6.all
  called := Six.const false
  rotationFixed := fixed
  drawdownActive := false
  drawdown := 0
  drawdownMinutes := 0

/-- The Power Allocator after a cold start with every line open (R95). -/
def Power.cold : Power where
  mainsOk := .clear
  genOn := .clear
  transferReq := .clear
  source := .none
  transferring := false
  ack := false
  queue := []
  stagger := none

/-- A screen after a cold start with every input open, before its rake begins to home (R119). -/
def Screen.cold : Screen where
  home := .clear
  bottom := .clear
  overload := .clear
  differential := 0
  diffStale := true
  blocked := false
  rake := .unhomed
  homed := false
  position := 0
  op := .none
  saved := none
  leg := .down
  upCount := 0
  legLimit := 0
  interrupted := .down
  retries := 0
  cycles := 0
  pending := false
  locks := .none
  acks := .none
  completion := none
  lastCycleEnd := 0
  jamTimer := none
  dwell := none
  reverse := none
  claim := none
  shedMark := false
  up := false
  down := false
  grip := false
  untested := false

/-- The Condition Table after a cold start (R145). -/
def Table.cold : Table where
  slots := List.replicate 48 .fresh
  waiting := []
  raisedSinceClear := 0
  lastClear := .zero
  changeOrder := 0
  saturated := false
  suppressed := ⟨0, 0, 0, 0⟩

/-- The Annunciator after a cold start (R153). -/
def Annunciator.cold : Annunciator where
  silence := false
  horn := false
  beacon := false
  relay := false
  lamps := List.replicate 16 .off
  flashOn := true

/-- The Panel Port after a cold start (R173). -/
def Port.cold : Port where
  phase := .idle
  protocol := false
  window := none
  flags := .none
  enables := .none
  attn := false
  dataOut := 0
  resetLine := false
  resetTimer := none

/-- The Town Link after a cold start with link_enable clear (R192). -/
def Link.cold (c : Settings) : Link where
  state := .offline
  baud := c.linkBaud
  assembly := none
  interByte := none
  sending := none
  offersOwed := 0
  wakesOwed := 0
  statusOwed := false
  requests := []
  grant := none
  period := none
  credits := 0
  heartbeatTimer := none
  statusTimer := none
  offerTimer := none
  lossTimer := none
  badFrames := 0
  protocolAck := false
  lostCause := false
  protocolCause := false

/-- A record as R126 seats it at uptime zero. -/
def Record.first (k : Key) (order : Nat) (extra : List Byte) : Record where
  key := k
  severity := k.kind.severity
  state := .raised
  shelved := false
  shelf := none
  ackBy := .nobody
  raiseCount := 1
  firstRaised := .zero
  lastChange := .zero
  changeOrder := order
  extra := extra
  townCurrent := false

/-- A rake that waits to home, as the cold start leaves it where no power is at hand (R105, R119). -/
def Screen.waitingToHome : Screen := { Screen.cold with rake := .waiting, op := .home true }

/-- Right after a cold start in which every input line reads open and the store holds the factory defaults with a good
checksum (assumptions 9 and 10). With MAINS-OK and GEN-ON open the source is NONE, so MAINS-FAIL and NO-POWER are raised
(R95) and seated in slots 1 and 2 (R126); both rakes wait in the claim queue to home (R119). -/
def State.reset : State where
  clock := ⟨.zero, .zero, false⟩
  level := Level.cold .factory
  balance := .cold
  pumps := Six.const .cold
  duty := .cold
  power := { Power.cold with queue := [.rake .i1, .rake .i2] }
  screens := Two.const .waitingToHome
  table := { Table.cold with
    slots := [.fresh, ⟨1, some (.first ⟨.mainsFail, 0⟩ 1 [0]), none⟩, ⟨1, some (.first ⟨.noPower, 0⟩ 2 [0]), none⟩] ++
      List.replicate 45 .fresh
    raisedSinceClear := 2
    changeOrder := 2 }
  ann := { Annunciator.cold with
    horn := true
    beacon := true
    lamps := List.replicate 10 .off ++ [.flash] ++ List.replicate 5 .off }
  port := { Port.cold with flags := { Attention.none with condition := true } }
  link := Link.cold .factory
  store := ⟨.factory, .factory, .factory, true, none, false, false⟩
  shown := .cold false
  pending := []

end Sys2Proof.Machine
end

