-- ==== Sys2Proof/Machine/Ops.lean ====
section
/-!
DEFINITION. Shared operations: updates of one block, bytes of a number, time, timers and debounced lines.
-/

namespace Sys2Proof.Machine

/-! Updates of one block -/

def State.onClock (f : Clock → Clock) (s : State) : State := { s with clock := f s.clock }
def State.onLevel (f : Level → Level) (s : State) : State := { s with level := f s.level }
def State.onBalance (f : Balance → Balance) (s : State) : State := { s with balance := f s.balance }
def State.onPump (p : Ix6) (f : Pump → Pump) (s : State) : State := { s with pumps := s.pumps.modify p f }
def State.onDuty (f : Duty → Duty) (s : State) : State := { s with duty := f s.duty }
def State.onPower (f : Power → Power) (s : State) : State := { s with power := f s.power }
def State.onScreen (n : Ix2) (f : Screen → Screen) (s : State) : State := { s with screens := s.screens.modify n f }
def State.onTable (f : Table → Table) (s : State) : State := { s with table := f s.table }
def State.onAnn (f : Annunciator → Annunciator) (s : State) : State := { s with ann := f s.ann }
def State.onPort (f : Port → Port) (s : State) : State := { s with port := f s.port }
def State.onLink (f : Link → Link) (s : State) : State := { s with link := f s.link }
def State.onStore (f : Store → Store) (s : State) : State := { s with store := f s.store }

/-- A pump's record. -/
def State.pump (s : State) (p : Ix6) : Pump := s.pumps.get p

/-- A screen's record. -/
def State.screen (s : State) (n : Ix2) : Screen := s.screens.get n

/-- The running set. -/
def State.running (s : State) : Settings := s.store.running

/-! Bytes of a number, most significant first (R200) -/

def byte (n : Nat) : Byte := BitVec.ofNat 8 n
def bytes2 (n : Nat) : List Byte := [byte (n / 256), byte n]
def bytes4 (n : Nat) : List Byte := [byte (n / 0x1000000), byte (n / 0x10000), byte (n / 256), byte n]

/-- A station clock or uptime value: four bytes of seconds, one of ticks (R200). -/
def stampBytes (t : Stamp) : List Byte := bytes4 t.secs ++ [byte t.ticks]

/-- 1 for made or set. -/
def bit (b : Bool) : Nat := if b then 1 else 0

/-- A byte from its bits, bit 0 first. -/
def bits (bs : List Bool) : Nat := bs.foldr (fun b n => bit b + 2 * n) 0

/-! Time -/

/-- A count that stops at its largest value (section 4.1). -/
def saturate (limit n : Nat) : Nat := min limit n

/-- The largest 16-bit and 32-bit values. -/
def max16 : Nat := 65535
def max32 : Nat := 4294967295

/-- The next reading, 10 ms on (R197). -/
def Stamp.next (t : Stamp) : Stamp :=
  if t.ticks < 99 then { t with ticks := t.ticks + 1 }
  else if t.secs < max32 then ⟨t.secs + 1, 0⟩ else ⟨0, 0⟩

/-- A reading as a count of ticks. -/
def Stamp.total (t : Stamp) : Nat := t.secs * 100 + t.ticks

/-- Ticks of uptime from one reading to a later one, the seconds running round at 32 bits. -/
def ticksSince (now before : Stamp) : Nat := (now.total + 429496729600 - before.total) % 429496729600

/-- Seconds of uptime from one count of seconds to a later one, running round at 32 bits. -/
def secondsSince (now before : Nat) : Nat := (now + 4294967296 - before) % 4294967296

/-- A timer started at a time in seconds. -/
def seconds (n : Nat) : Timer := some (100 * n)

/-- A timer whose time has run out, so that its expiry is the next thing that happens to it. -/
def timerDue (t : Timer) : Bool := t == some 0

/-- 10 ms of uptime pass for a timer. -/
def timerTick (t : Timer) : Timer := t.map (· - 1)

/-- A quotient rounded up to a whole number. -/
def ceilDiv (n d : Nat) : Nat := (n + d - 1) / d

/-- A timer's remaining time in units of so many ticks, rounded up, and 0 while it is stopped. -/
def remaining (t : Timer) (unit : Nat) : Nat := ceilDiv (t.getD 0) unit

/-! Debounced lines (R8, R38, R60, R81, R96) -/

/-- The line goes to a value. A line that comes to differ from its debounced state starts the debounce timer; one that
comes back to it cancels the timer. A line that is told its own value has not changed. -/
def Debounced.change (v : Bool) (ticks : Nat) (d : Debounced) : Debounced :=
  if d.line = v then d
  else { d with line := v, timer := if d.state = v then none else some ticks }

/-- The debounce timer has run out. -/
def Debounced.due (d : Debounced) : Bool := timerDue d.timer

/-- The debounced state takes the line's state. -/
def Debounced.take (d : Debounced) : Debounced := { d with state := d.line, timer := none }

/-- The debounced state as read at cold start, without debounce. -/
def Debounced.asRead (d : Debounced) : Debounced := { d with state := d.line, timer := none }

/-- A float at cold start (R17): open, with its timer started if its input is made. -/
def Debounced.coldFloat (d : Debounced) : Debounced :=
  { d with state := false, timer := if d.line then some 200 else none }

def Debounced.tick (d : Debounced) : Debounced := { d with timer := timerTick d.timer }

end Sys2Proof.Machine
end

