-- ==== Sys2Proof/Machine/Flags.lean ====
section
/-!
DEFINITION. The six attention flags, their enables and the ATTN output (section 9.6).
-/

namespace Sys2Proof.Machine

/-- The six attention flags (R167). -/
inductive Flag
  | condition | screen | power | link | settings | balance
  deriving DecidableEq, Repr

def Attention.mark (a : Attention) : Flag → Attention
  | .condition => { a with condition := true }
  | .screen => { a with screen := true }
  | .power => { a with power := true }
  | .link => { a with link := true }
  | .settings => { a with settings := true }
  | .balance => { a with balance := true }

/-- The flags that are both set and enabled. -/
def Attention.meet (a b : Attention) : Attention where
  condition := a.condition && b.condition
  screen := a.screen && b.screen
  power := a.power && b.power
  link := a.link && b.link
  settings := a.settings && b.settings
  balance := a.balance && b.balance

/-- The flags of the first that the second lacks. -/
def Attention.less (a b : Attention) : Attention where
  condition := a.condition && !b.condition
  screen := a.screen && !b.screen
  power := a.power && !b.power
  link := a.link && !b.link
  settings := a.settings && !b.settings
  balance := a.balance && !b.balance

/-- At least one flag is set. -/
def Attention.some? (a : Attention) : Bool :=
  a.condition || a.screen || a.power || a.link || a.settings || a.balance

/-- The attention and enable byte (section 12.2). -/
def Attention.code (a : Attention) : Nat := bits [a.condition, a.screen, a.power, a.link, a.settings, a.balance]

/-- The six enables of an enable byte (section 12.2). -/
def Attention.ofByte (b : Byte) : Attention where
  condition := b.getLsbD 0
  screen := b.getLsbD 1
  power := b.getLsbD 2
  link := b.getLsbD 3
  settings := b.getLsbD 4
  balance := b.getLsbD 5

/-- ATTN is asserted while at least one flag is set with its enable on (R169). -/
def Port.formAttn (p : Port) : Port := { p with attn := (p.flags.meet p.enables).some? }

/-- Set an attention flag, whatever its enable, and re-form ATTN (R167, R169). -/
def setFlag (f : Flag) (s : State) : State := s.onPort fun p => { p with flags := p.flags.mark f }.formAttn

end Sys2Proof.Machine
end

