-- ==== Sys2Proof/Machine/Conditions.lean ====
section
/-!
DEFINITION. The Condition Table's handling of edges: raises, returns, seating, displacement, saturation and the waiting
list, retirement and shelving (chapter 7), with what a record that enters RAISED does to the silence state (R147) and to
a QUIET link (R187).
-/

namespace Sys2Proof.Machine

/-! Reading the table -/

def Table.slot (t : Table) (i : Nat) : Slot := t.slots.getD i .fresh

/-- Whether a slot holds the record of a key. -/
def Slot.holds (k : Key) (sl : Slot) : Bool := (sl.record.map (·.key)) == some k

/-- The slot that holds a key's record. -/
def Table.seatedAt? (t : Table) (k : Key) : Option Nat := t.slots.findIdx? (Slot.holds k)

/-- Records seated, slot 0 included (R143). -/
def Table.seatedCount (t : Table) : Nat := t.slots.countP (·.record.isSome)

/-- A key's place in the waiting list, from 0. -/
def Table.waitsAt? (t : Table) (k : Key) : Option Nat := t.waiting.findIdx? (fun w => w.key == k)

/-- The lowest-numbered vacant general slot. -/
def Table.vacant? (t : Table) : Option Nat :=
  (List.range 48).find? (fun i => i ≠ 0 && (t.slot i).record.isNone)

/-- A DORMANT record's change order. -/
def Slot.dormantOrder? (sl : Slot) : Option Nat :=
  match sl.record with
  | some r => if r.state = .dormant then some r.changeOrder else none
  | none => none

/-- Of a slot found so far and a next one, the one whose DORMANT record has the smaller change order. -/
def Table.olderDormant (t : Table) (best : Option Nat) (i : Nat) : Option Nat :=
  match (t.slot i).dormantOrder?, best with
  | none, _ => best
  | some _, none => some i
  | some o, some j => if o < ((t.slot j).dormantOrder?.getD 0) then some i else some j

/-- The general slot whose record is DORMANT with the smallest change order. -/
def Table.oldestDormant? (t : Table) : Option Nat :=
  ((List.range 48).filter (· ≠ 0)).foldl t.olderDormant none

/-- Where R126 seats a record: the lowest vacant general slot, else the displaced DORMANT one, else nowhere. -/
def Table.place? (t : Table) : Option Nat :=
  match t.vacant? with
  | some i => some i
  | none => t.oldestDormant?

/-! Changes -/

/-- The next value of the 48-bit change order count (R123, assumption 15). -/
def nextOrder (n : Nat) : Nat := if n + 1 < 2 ^ 48 then n + 1 else (Config.orderAfterFull n).toNat

/-- The next generation: from 255 to 1 (R121). -/
def nextGen (g : Nat) : Nat := if g < 255 then g + 1 else 1

/-- Wake a QUIET link to ONLINE (R187): timers, a STATUS owed, and at the part's own wake a WAKE frame owed. -/
def wakeLink (byPart : Bool) (s : State) : State :=
  if s.link.state = .quiet then
    setFlag .link (s.onLink fun l => { l with
      state := .online
      heartbeatTimer := seconds (3 * l.period.getD 0)
      statusOwed := true
      statusTimer := seconds (l.period.getD 0)
      wakesOwed := if byPart then l.wakesOwed + 1 else l.wakesOwed })
  else s

/-- Whether a record can sound the horn: unshelved and at or above horn_threshold (R146). -/
def Record.sounds (r : Record) (c : Settings) : Bool := !r.shelved && c.hornThreshold ≤ r.severity.code

/-- A record has entered RAISED: the silence ends if the record can sound the horn (R147), and a MAJOR or CRITICAL record
wakes a QUIET link, shelved or not (R187). -/
def enteredRaised (r : Record) (s : State) : State :=
  let s1 := if r.sounds s.running then s.onAnn fun a => { a with silence := false } else s
  if r.severity.atLeast .major then wakeLink true s1 else s1

/-- A change of the record in a slot (R123): the change itself, then last change, change order, the town-current flag and
the CONDITION attention flag. -/
def changeRecord (i : Nat) (f : Record → Record) (s : State) : State :=
  match (s.table.slot i).record with
  | none => s
  | some r =>
    let o := nextOrder s.table.changeOrder
    let r1 := { f r with lastChange := s.clock.station, changeOrder := o, townCurrent := false }
    setFlag .condition (s.onTable fun t =>
      { t with changeOrder := o, slots := t.slots.set i { t.slot i with record := some r1 } })

/-- Seat a record in a slot (R126), with the station clock at which its condition first rose. -/
def seat (i : Nat) (k : Key) (sev : Severity) (extra : List Byte) (first : Stamp) (s : State) : State :=
  let o := nextOrder s.table.changeOrder
  let r : Record :=
    { key := k, severity := sev, state := .raised, shelved := false, shelf := none, ackBy := .nobody, raiseCount := 1,
      firstRaised := first, lastChange := s.clock.station, changeOrder := o, extra := extra, townCurrent := false }
  enteredRaised r (setFlag .condition (s.onTable fun t =>
    { t with changeOrder := o, slots := t.slots.set i ⟨nextGen (t.slot i).gen, some r, none⟩ }))

/-- The state a raise takes a record to (R124). -/
def RecState.raise : RecState → RecState
  | .raised => .raised | .acked => .acked | .returned => .raised | .dormant => .raised

/-- A raise taken on a seated record (R124), but for its count in raised-since-clear. -/
def raiseSeated (i : Nat) (sev : Severity) (extra : List Byte) (s : State) : State :=
  match (s.table.slot i).record with
  | none => s
  | some r =>
    let again := r.state = .returned || r.state = .dormant
    let r1 := { r with
      state := r.state.raise
      severity := sev
      extra := extra
      raiseCount := saturate 255 (r.raiseCount + 1)
      ackBy := if again then .nobody else r.ackBy }
    let s1 := changeRecord i (fun _ => r1) s
    if again then enteredRaised r1 s1 else s1

/-! Saturation and the waiting list -/

/-- One more suppression of a severity, each count 16-bit and saturating (R132). -/
def Suppressions.add (c : Suppressions) : Severity → Suppressions
  | .advisory => { c with advisory := saturate max16 (c.advisory + 1) }
  | .minor => { c with minor := saturate max16 (c.minor + 1) }
  | .major => { c with major := saturate max16 (c.major + 1) }
  | .critical => { c with critical := saturate max16 (c.critical + 1) }

/-- TABLE-SATURATED's extra data (section 12.3). -/
def Suppressions.image (c : Suppressions) : List Byte :=
  bytes2 c.advisory ++ bytes2 c.minor ++ bytes2 c.major ++ bytes2 c.critical

/-- The raise of TABLE-SATURATED, taken on slot 0 (R132). -/
def raiseSaturated (s : State) : State :=
  let extra := s.table.suppressed.image
  if (s.table.slot 0).record.isSome then raiseSeated 0 .major extra s
  else seat 0 ⟨.tableSaturated, 0⟩ .major extra s.clock.station s

/-- Count a suppression (R127, R132): the count of its severity rises, and TABLE-SATURATED's cause becomes present. While
it already is, a count that moves is a change of slot 0's record. -/
def countSuppression (sev : Severity) (s : State) : State :=
  let c := s.table.suppressed.add sev
  let s1 := s.onTable fun t => { t with suppressed := c, saturated := true }
  if s.table.saturated then
    if c = s.table.suppressed then s1 else changeRecord 0 (fun r => { r with extra := c.image }) s1
  else raiseSaturated s1

/-- Place an entry behind every entry of equal or higher severity (R133). -/
def placeWaiting (w : Waiting) (l : List Waiting) : List Waiting :=
  l.takeWhile (fun e => e.severity.atLeast w.severity) ++ w :: l.dropWhile (fun e => e.severity.atLeast w.severity)

/-- A suppressed raise whose key is not in the list (R133): placed, or placed for the newest entry of the lowest severity
where the list is full and that severity is lower, or dropped. -/
def enlist (w : Waiting) (l : List Waiting) : List Waiting :=
  if l.length < 16 then placeWaiting w l
  else
    match l.getLast? with
    | some e => if w.severity.code > e.severity.code then placeWaiting w l.dropLast else l
    | none => l

/-- The waiting list changes to a given one; a change sets the CONDITION flag (R133). -/
def setWaiting (l : List Waiting) (s : State) : State :=
  if l = s.table.waiting then s else setFlag .condition (s.onTable fun t => { t with waiting := l })

/-- A raise counts once in raised-since-clear, and a change of the header sets the CONDITION flag (R143). -/
def countRaise (s : State) : State :=
  setFlag .condition (s.onTable fun t => { t with raisedSinceClear := saturate max32 (t.raisedSinceClear + 1) })

/-- Serve the waiting list (R134): seat the head entry while the list holds one and a place exists. The first argument
bounds the entries served. -/
def serveWaiting : Nat → State → State
  | 0, s => s
  | n + 1, s =>
    match s.table.waiting, s.table.place? with
    | w :: rest, some i => serveWaiting n (seat i w.key w.severity w.extra w.time (setWaiting rest s))
    | _, _ => s

/-- Serve the waiting list as far as it goes. -/
def serve (s : State) : State := serveWaiting s.table.waiting.length s

/-! Edges -/

/-- A raise offered by a source (R124, R126, R127, R133). -/
def raise (k : Key) (sev : Severity) (extra : List Byte) (s : State) : State :=
  let s1 := countRaise s
  match s1.table.seatedAt? k with
  | some i => raiseSeated i sev extra s1
  | none =>
    match s1.table.waitsAt? k with
    | some _ =>
      countSuppression sev
        (setWaiting (s1.table.waiting.map fun w => if w.key = k then { w with extra := extra } else w) s1)
    | none =>
      match s1.table.place? with
      | some i => seat i k sev extra s1.clock.station s1
      | none => countSuppression sev (setWaiting (enlist ⟨k, sev, extra, s1.clock.station⟩ s1.table.waiting) s1)

/-- A raise of a catalogue kind, at the catalogue's severity (R120). -/
def raiseKind (k : Kind) (number : Nat) (extra : List Byte) (s : State) : State :=
  raise ⟨k, number⟩ k.severity extra s

/-- A return offered for a key (R125). -/
def returnKey (k : Key) (s : State) : State :=
  match s.table.seatedAt? k with
  | some i =>
    match (s.table.slot i).record.map Record.state with
    | some RecState.raised => changeRecord i (fun r => { r with state := .returned }) s
    | some RecState.acked =>
      let s1 := changeRecord i (fun r => { r with state := .dormant }) s
      if i = 0 then s1 else serve s1
    | _ => s
  | none => setWaiting (s.table.waiting.filter fun w => w.key ≠ k) s

/-- A return of a catalogue kind. -/
def returnKind (k : Kind) (number : Nat) (s : State) : State := returnKey ⟨k, number⟩ s

/-- An edge of a catalogue kind: a raise with its extra data, or a return. -/
structure Edge where
  kind : Kind
  number : Nat
  /-- Extra data of a raise; none for a return. -/
  extra : Option (List Byte)
  deriving DecidableEq, Repr

def offerEdge (e : Edge) (s : State) : State :=
  match e.extra with
  | some x => raiseKind e.kind e.number x s
  | none => returnKind e.kind e.number s

/-- The edge of a cause between what it was and what it is: a raise with its extra data, a return, or none. -/
def causeEdge (k : Kind) (number : Nat) (before after : Bool) (extra : List Byte) : List Edge :=
  if before = after then [] else [⟨k, number, if after then some extra else none⟩]

/-- The table is saturated while no general slot is vacant and no general record is DORMANT (R132). -/
def Table.isSaturated (t : Table) : Bool := t.place?.isNone

/-- The test at the end of an event (R132): an unsaturated table returns TABLE-SATURATED on slot 0. -/
def testSaturation (s : State) : State :=
  if s.table.saturated && !s.table.isSaturated then
    returnKey ⟨.tableSaturated, 0⟩ (s.onTable fun t => { t with saturated := false })
  else s

/-! Retirement -/

/-- Remove a slot's record (R130): the slot keeps its generation and takes a gone-owed mark with the next change order;
slot 0 clears the suppression counts. The waiting list is served by the caller. -/
def removeRecord (i : Nat) (s : State) : State :=
  let o := nextOrder s.table.changeOrder
  setFlag .condition (s.onTable fun t =>
    { t with
      changeOrder := o
      slots := t.slots.set i { t.slot i with record := none, goneOwed := some o }
      suppressed := if i = 0 then ⟨0, 0, 0, 0⟩ else t.suppressed })

/-- Retire the DORMANT record of a slot (R130). -/
def retireSlot (i : Nat) (s : State) : State :=
  if i = 0 then removeRecord i s else serve (removeRecord i s)

/-! Shelving -/

/-- Unshelve the record in a slot (R136, R137). A RAISED record that can now sound the horn ends the silence (R147). -/
def unshelveSlot (i : Nat) (s : State) : State :=
  match (s.table.slot i).record with
  | none => s
  | some r =>
    let r1 := { r with shelved := false, shelf := none }
    let s1 := changeRecord i (fun _ => r1) s
    if r.state = .raised && r1.sounds s.running then s1.onAnn fun a => { a with silence := false } else s1

/-- The record in a slot is shelved and the mask forbids its kind (R137). -/
def forbiddenAt (s : State) (i : Nat) : Bool :=
  (s.table.slot i).record.any fun r => r.shelved && !s.running.permitsShelving r.key.kind

/-- The record in a slot is unshelved where it is shelved and the mask forbids its kind (R137). -/
def enforceMaskAt (i : Nat) (s : State) : State := if forbiddenAt s i then unshelveSlot i s else s

/-! Changes that no rule orders (R123) -/

/-- What one event may do to a record: an edge, or an unshelving that a commit forces on a slot. -/
inductive Change
  | edge (e : Edge)
  | unshelve (slot : Nat)
  deriving DecidableEq, Repr

/-- The slot in which an edge makes its change, as the table stands: the slot of its record; for a raise that has none, the
place it takes, or slot 0, whose record a suppression changes; 48 for a return that changes no record. -/
def Table.edgeSlot (t : Table) (e : Edge) : Nat :=
  match t.seatedAt? ⟨e.kind, e.number⟩ with
  | some i => i
  | none => if e.extra.isSome then t.place?.getD 0 else 48

def Table.changeSlot (t : Table) : Change → Nat
  | .edge e => t.edgeSlot e
  | .unshelve i => i

def makeChange (c : Change) (s : State) : State :=
  match c with
  | .edge e => offerEdge e s
  | .unshelve i => enforceMaskAt i s

/-- The first of some changes in the lowest slot, and the others. -/
def Table.takeLowest (t : Table) : List Change → Option (Change × List Change)
  | [] => none
  | c :: cs =>
    match t.takeLowest cs with
    | some (m, rest) => if t.changeSlot m < t.changeSlot c then some (m, c :: rest) else some (c, cs)
    | none => some (c, cs)

/-- The next change and what is left, where a rule takes some changes stage after stage and leaves others free: of what may
come next, that in the lowest slot. -/
def Table.nextChange (t : Table) : List (List Change) → List Change → Option (Change × List (List Change) × List Change)
  | [], free => (t.takeLowest free).map fun (c, rest) => (c, [], rest)
  | stage :: stages, free =>
    match t.takeLowest stage, t.takeLowest free with
    | none, _ => t.nextChange stages free
    | some (c, rest), none => some (c, rest :: stages, free)
    | some (c, rest), some (f, others) =>
      if t.changeSlot f < t.changeSlot c then some (f, stage :: stages, others) else some (c, rest :: stages, free)

/-- Make changes one by one, each the next as the table then stands. The first argument bounds the changes. -/
def makeNext : Nat → List (List Change) → List Change → State → State
  | 0, _, _, s => s
  | n + 1, stages, free, s =>
    match s.table.nextChange stages free with
    | some (c, stages, free) => makeNext n stages free (makeChange c s)
    | none => s

/-- Make the changes of one event: those of stages that a rule takes one after another, and among them those that no rule
orders, lowest slot first (R123, assumption 14). -/
def makeChanges (stages : List (List Change)) (free : List Change) (s : State) : State :=
  makeNext (stages.flatten.length + free.length) stages free s

/-- Offer edges that no rule orders. -/
def offerEdges (es : List Edge) (s : State) : State := makeChanges [] (es.map .edge) s

/-- Offer the edges of stages taken one after another, and free edges among them. -/
def offerStages (stages : List (List Edge)) (free : List Edge) (s : State) : State :=
  makeChanges (stages.map fun es => es.map .edge) (free.map .edge) s

/-! Handles -/

/-- What a handle names (R122): a slot, or the outcome that refuses it. -/
def Table.resolve (t : Table) (slot gen : Nat) : Except ReplyCode Nat :=
  if 47 < slot then .error .outOfRange
  else if (t.slot slot).record.isSome && (t.slot slot).gen = gen then .ok slot
  else .error .staleHandle

/-! Notice marks (R144) -/

/-- At a join, every record's town-current flag is cleared and every gone-owed mark dropped. -/
def clearNoticeMarks (s : State) : State :=
  s.onTable fun t => { t with
    slots := t.slots.map fun sl =>
      { sl with goneOwed := none, record := sl.record.map fun r => { r with townCurrent := false } } }

end Sys2Proof.Machine
end

