-- ==== Sys2Proof/Machine/Power.lean ====
section
/-!
DEFINITION. The Power Allocator's quantities, its claim queue and its shed marks (chapter 5).
-/

namespace Sys2Proof.Machine

/-! Budget, load, available and free (R81, R83) -/

/-- The source the debounced lines give (R81). -/
def Power.derive (w : Power) : Source :=
  if w.mainsOk.state then .mains else if w.genOn.state then .generator else .none

/-- The budget: of the source, or 0 while the transferring mark is set (R81). -/
def budget (s : State) : Nat :=
  if s.power.transferring then 0
  else
    match s.power.source with
    | .mains => s.running.mainsUnits
    | .generator => s.running.genUnits
    | .none => 0

/-- Whether a pump draws without a grant: in HAND with run feedback present, or in RUN-ON (R83). -/
def Pump.external (p : Pump) : Bool := (p.seq = .hand && p.feedback.state) || p.seq = .runOn

/-- External load: the units in force of the pumps that draw without a grant (R83). -/
def externalLoad (s : State) : Nat :=
  (Ix6.all.map fun p => if (s.pump p).external then s.running.pumpUnits p else 0).sum

/-- Available: the budget less the external load, not below 0 (R83). -/
def available (s : State) : Nat := budget s - externalLoad s

/-- The sum of the units of all claims held (R83, R84). -/
def claimSum (s : State) : Nat :=
  (s.pumps.toList.map fun p => p.claim.getD 0).sum + (s.screens.toList.map fun n => n.claim.getD 0).sum

/-- Free: available less the claims, perhaps negative (R83). -/
def free (s : State) : Int := (available s : Int) - (claimSum s : Int)

/-- Extra data of MAINS-FAIL and NO-POWER: the debounced lines (section 12.3). -/
def Power.lines (w : Power) : List Byte := [byte (bits [w.mainsOk.state, w.genOn.state, w.transferReq.state])]

/-- The edges a change of source implies (R82), in the order R82 gives them. -/
def sourceEdges (old new : Source) (lines : List Byte) : List Edge :=
  match old, new with
  | .mains, .generator => [⟨.mainsFail, 0, some lines⟩]
  | .mains, .none => [⟨.mainsFail, 0, some lines⟩, ⟨.noPower, 0, some lines⟩]
  | .generator, .none => [⟨.noPower, 0, some lines⟩]
  | .none, .generator => [⟨.noPower, 0, none⟩]
  | .generator, .mains => [⟨.mainsFail, 0, none⟩]
  | .none, .mains => [⟨.noPower, 0, none⟩, ⟨.mainsFail, 0, none⟩]
  | _, _ => []

/-- Derive the source afresh from the debounced lines (R81), offering the edges of a change (R82) and setting the POWER
attention flag (R93). -/
def deriveSource (s : State) : State :=
  let old := s.power.source
  let new := s.power.derive
  if old = new then s
  else (sourceEdges old new s.power.lines).foldl (fun s e => offerEdge e s)
    (setFlag .power (s.onPower fun w => { w with source := new }))

/-! The claim queue (R85) -/

/-- A rake whose screen is BLOCKED, now. -/
def isBlockedRake (s : State) : Claimant → Bool
  | .pump _ => false
  | .rake n => (s.screen n).blocked

/-- The queue with a claimant joined: a rake of a BLOCKED screen behind the blocked rakes and ahead of the rest, any
other claimant at the tail. -/
def queueWith (s : State) (c : Claimant) (q : List Claimant) : List Claimant :=
  if isBlockedRake s c then q.takeWhile (isBlockedRake s) ++ c :: q.dropWhile (isBlockedRake s) else q ++ [c]

/-- A claimant asks to queue; one already queued keeps its entry. -/
def joinQueue (c : Claimant) (s : State) : State :=
  if s.power.queue.contains c then s
  else s.onPower fun w => { w with queue := queueWith s c w.queue }

/-- A claimant leaves the queue, and those behind it close up. -/
def leaveQueue (c : Claimant) (s : State) : State :=
  s.onPower fun w => { w with queue := w.queue.filter (· ≠ c) }

/-- A queued rake whose screen becomes BLOCKED moves to the place a blocked rake would join. -/
def moveBlockedRake (n : Ix2) (s : State) : State :=
  if s.power.queue.contains (.rake n) then joinQueue (.rake n) (leaveQueue (.rake n) s) else s

/-! Shed marks (R89) -/

/-- Any shed mark is set: the cause of POWER-SHED. -/
def anyShed (s : State) : Bool := s.pumps.toList.any (·.shedMark) || s.screens.toList.any (·.shedMark)

def setMark (c : Claimant) (v : Bool) (s : State) : State :=
  match c with
  | .pump p => s.onPump p fun q => { q with shedMark := v }
  | .rake n => s.onScreen n fun q => { q with shedMark := v }

/-- Set a shed mark; the first one raises POWER-SHED with the units short. -/
def markShed (c : Claimant) (short : Nat) (s : State) : State :=
  let s1 := setMark c true s
  if anyShed s then s1 else raiseKind .powerShed 0 [byte short] s1

/-- The return of POWER-SHED, where a claimant's shed mark is the last one set. -/
def shedEnds (c : Claimant) (s : State) : List Edge :=
  causeEdge .powerShed 0 (anyShed s) (anyShed (setMark c false s)) []

/-- Clear a shed mark; the last one returns POWER-SHED. -/
def clearShed (c : Claimant) (s : State) : State := offerEdges (shedEnds c s) (setMark c false s)

/-- A claimant stops waiting other than by grant: it leaves the queue and its shed mark clears. The edge is the caller's. -/
def waitNoMore (c : Claimant) (s : State) : State := setMark c false (leaveQueue c s)

/-- A claimant stops waiting other than by grant, with the return of POWER-SHED where its shed mark was the last. -/
def quitQueue (c : Claimant) (s : State) : State := offerEdges (shedEnds c s) (waitNoMore c s)

/-! Start gate (R87) -/

/-- The start gate is closed while a pump is in STARTING and open otherwise. -/
def gateOpen (s : State) : Bool := s.pumps.toList.all fun p => p.seq ≠ .starting

end Sys2Proof.Machine
end

