-- ==== Sys2Proof/Machine/Pumps.lean ====
section
/-!
DEFINITION. The Pump Sequencer's operations and the records they move: stops, RUN-ON, lockouts and their release,
selector changes, the start of a granted pump and its start history (chapters 3 and 4).
-/

namespace Sys2Proof.Machine

/-! Start history (R40, R41) -/

/-- The starts-limited state from the history and the limit in force (R41). -/
def Pump.review (limit : Nat) (q : Pump) : Pump := { q with startsLimited := decide (limit ≤ q.history.length) }

/-- The PUMP-STARTS-LIMIT edge of a pump whose starts-limited state moved (R41). -/
def startsEdge (limit : Nat) (p : Ix6) (before after : Pump) : List Edge :=
  causeEdge .pumpStartsLimit p.num before.startsLimited after.startsLimited [byte limit]

/-- A pump's starts-limited state is evaluated again, with its edge (R41). -/
def reviewStarts (p : Ix6) (s : State) : State :=
  let limit := s.running.startsPerHour p
  offerEdges (startsEdge limit p (s.pump p) ((s.pump p).review limit)) (s.onPump p (Pump.review limit))

/-- The oldest entries go until the history fits its limit (R40). -/
def trimHistory (limit : Nat) (h : List Stamp) : List Stamp := h.drop (h.length - limit)

/-- A pump's history is trimmed to a limit and its starts-limited state evaluated again (R40, R41, R58). -/
def Pump.trim (limit : Nat) (q : Pump) : Pump := Pump.review limit { q with history := trimHistory limit q.history }

/-- Every history is trimmed at a commit (R58). The edges are the caller's. -/
def trimAllHistories (s : State) : State :=
  { s with pumps := Six.gen fun p => (s.pump p).trim (s.running.startsPerHour p) }

/-- The PUMP-STARTS-LIMIT edges of a commit, from the limits now in force (R41, R58). -/
def trimEdges (s : State) : List Edge :=
  (Ix6.all.map fun p => startsEdge (s.running.startsPerHour p) p (s.pump p)
    ((s.pump p).trim (s.running.startsPerHour p))).flatten

/-- The oldest entry has reached 3600 s of uptime (R40). -/
def oldestAged (now : Stamp) : List Stamp → Bool
  | [] => false
  | t :: _ => 360000 ≤ ticksSince now t

/-! The ladder (R49) -/

/-- A pump moves to the tail of the ladder. -/
def toTail (p : Ix6) (l : List Ix6) : List Ix6 := l.filter (· ≠ p) ++ [p]

/-! Stops (R67, R69) -/

/-- Stop reasons (R66 to R71). -/
inductive StopReason
  | callWithdrawn | lockout | shed | headBlocked
  deriving DecidableEq, Repr

/-- Entry to STOPPING from STARTING or RUNNING (R69). -/
def Pump.stop (stopWindow runDown : Nat) (q : Pump) : Pump :=
  { q with
    seq := .stopping, contactor := false, claim := none, startWindow := none, minRun := none, headTimer := none
    stopWindow := seconds stopWindow, stopDone := false, runDown := seconds runDown }

/-- A STARTING or RUNNING pump stops (R69); only a CALL-WITHDRAWN stop in ON-STOP moves the ladder (R49). -/
def stopPump (r : StopReason) (p : Ix6) (s : State) : State :=
  let s1 := s.onPump p (Pump.stop (s.running.stopWindow p) (s.running.runDown p))
  if r = .callWithdrawn && !s.running.rotationFixed then s1.onDuty fun d => { d with ladder := toTail p d.ladder }
  else s1

/-! RUN-ON (R71) -/

/-- Route by which RUN-ON was entered (section 12.3). -/
inductive Route
  | stopping | idle | queued | selector | coldStart
  deriving DecidableEq, Repr

def Route.code : Route → Nat
  | .stopping => 0 | .idle => 1 | .queued => 2 | .selector => 3 | .coldStart => 4

/-- Entry to RUN-ON (R71), with the shed mark cleared (R89). No rule orders the two edges. -/
def enterRunOn (r : Route) (p : Ix6) (s : State) : State :=
  offerEdges (shedEnds (.pump p) s ++ [⟨.pumpFailStop, p.num, some [byte r.code]⟩]) (s.onPump p fun q =>
    { q with seq := .runOn, stopWindow := none, stopDone := false, runDown := none, shedMark := false })

/-- Feedback drops in RUN-ON (R71): STOPPING with the stop window done and a fresh run-down. -/
def leaveRunOn (p : Ix6) (s : State) : State :=
  returnKind .pumpFailStop p.num (s.onPump p fun q =>
    { q with seq := .stopping, stopDone := true, runDown := seconds (s.running.runDown p) })

/-! Lockouts (R65, R67, R68, R73, R75) -/

/-- Lockout reasons (section 3.1). -/
inductive PumpReason
  | thermal | trip | failStart | panelInhibit | townInhibit
  deriving DecidableEq, Repr

def PumpLocks.has (l : PumpLocks) : PumpReason → Bool
  | .thermal => l.thermal | .trip => l.trip | .failStart => l.failStart
  | .panelInhibit => l.panelInhibit | .townInhibit => l.townInhibit

def PumpLocks.put (l : PumpLocks) (r : PumpReason) (v : Bool) : PumpLocks :=
  match r with
  | .thermal => { l with thermal := v }
  | .trip => { l with trip := v }
  | .failStart => { l with failStart := v }
  | .panelInhibit => { l with panelInhibit := v }
  | .townInhibit => { l with townInhibit := v }

/-- The acknowledged mark of a reason; the inhibit reasons have none (R75). -/
def PumpAcks.has (a : PumpAcks) : PumpReason → Bool
  | .thermal => a.thermal | .trip => a.trip | .failStart => a.failStart
  | .panelInhibit | .townInhibit => false

def PumpAcks.put (a : PumpAcks) (r : PumpReason) (v : Bool) : PumpAcks :=
  match r with
  | .thermal => { a with thermal := v }
  | .trip => { a with trip := v }
  | .failStart => { a with failStart := v }
  | .panelInhibit | .townInhibit => a

def PumpLocks.empty (l : PumpLocks) : Bool :=
  !l.thermal && !l.trip && !l.failStart && !l.panelInhibit && !l.townInhibit

/-- The lockout set as a byte (section 12.3). -/
def PumpLocks.code (l : PumpLocks) : Nat := bits [l.thermal, l.trip, l.failStart, l.panelInhibit, l.townInhibit]

/-- Sequencer state codes (R200). -/
def Seq.code : Seq → Nat
  | .off => 0 | .hand => 1 | .idle => 2 | .queued => 3 | .starting => 4 | .running => 5 | .stopping => 6 | .runOn => 7

/-- A reason joins the lockout set and acts on the state (R67): a QUEUED pump leaves the queue for IDLE, a STARTING or
RUNNING pump stops, any other state stands. No rule orders the reason's own edges, given, and the return of POWER-SHED
where the QUEUED pump's shed mark was the last, so they go in slot order (R123, assumption 14). -/
def addReason (p : Ix6) (r : PumpReason) (es : List Edge) (s : State) : State :=
  let s1 := s.onPump p fun q => { q with locks := q.locks.put r true, acks := q.acks.put r false }
  match (s.pump p).seq with
  | .queued =>
    offerEdges (es ++ shedEnds (.pump p) s) (waitNoMore (.pump p) (s1.onPump p fun q => { q with seq := .idle }))
  | .starting | .running => offerEdges es (stopPump .lockout p s1)
  | _ => offerEdges es s1

/-- The latched reasons: THERMAL, TRIP and FAIL-START (section 4.7). -/
def latchedReasons : List PumpReason := [.thermal, .trip, .failStart]

def PumpReason.kind : PumpReason → Kind
  | .thermal => .pumpThermal | .trip => .pumpTrip | .failStart => .pumpFailStart
  | .panelInhibit | .townInhibit => .pumpInhibited

/-- The latched reason whose record is of a kind. -/
def pumpReason? : Kind → Option PumpReason
  | .pumpThermal => some .thermal | .pumpTrip => some .trip | .pumpFailStart => some .failStart
  | _ => none

/-- A latched reason with its condition raised (R65, R68, R73). -/
def lockPump (p : Ix6) (r : PumpReason) (extra : List Byte) (s : State) : State :=
  addReason p r [⟨r.kind, p.num, some extra⟩] s

/-- The input of a latched reason is normal (section 4.7). -/
def Pump.inputNormal (q : Pump) : PumpReason → Bool
  | .thermal => !q.thermal.state
  | _ => true

/-- Both halves of a reason's release are complete (R76). -/
def Pump.releasable (q : Pump) (r : PumpReason) : Bool := q.locks.has r && q.acks.has r && q.inputNormal r

/-- Release the latched reasons of a pump that have both halves (R76), and offer the returns. A released reason's
acknowledged mark is left as it stands until the reason is next added (DESIGN CHOICE, assumption 34). -/
def releaseReasons (p : Ix6) (s : State) : State :=
  let rs := latchedReasons.filter (s.pump p).releasable
  offerEdges (rs.map fun r => ⟨r.kind, p.num, none⟩)
    (s.onPump p fun q => { q with locks := rs.foldl (fun l r => l.put r false) q.locks })

/-- A record-acknowledged notice reaches a pump (R76). -/
def pumpNotice (p : Ix6) (r : PumpReason) (s : State) : State :=
  if (s.pump p).locks.has r then releaseReasons p (s.onPump p fun q => { q with acks := q.acks.put r true }) else s

/-! Inputs (R60, R64, R68, R70 to R74) -/

/-- Whole seconds since the last entry to RUNNING, saturating (R68). -/
def runSpan (p : Ix6) (s : State) : Nat :=
  saturate max16 (ticksSince s.clock.uptime (s.pump p).runningSince / 100)

/-- Run feedback has become present (R64, R70, R72). -/
def feedbackPresent (p : Ix6) (s : State) : State :=
  match (s.pump p).seq with
  | .starting => s.onPump p fun q => { q with
      seq := .running, startWindow := none, minRun := seconds (s.running.minRun p), runningSince := s.clock.uptime }
  | .idle => enterRunOn .idle p s
  | .queued => enterRunOn .queued p (leaveQueue (.pump p) s)
  | .stopping => if (s.pump p).stopDone then enterRunOn .stopping p s else s
  | _ => s

/-- Run feedback has become absent (R68, R70, R71). -/
def feedbackAbsent (p : Ix6) (s : State) : State :=
  match (s.pump p).seq with
  | .running => lockPump p .trip (bytes2 (runSpan p s)) s
  | .runOn => leaveRunOn p s
  | _ => s

/-- The thermal input has become abnormal or normal (R73, R76). -/
def thermalMoved (p : Ix6) (s : State) : State :=
  if (s.pump p).thermal.state then
    if (s.pump p).locks.thermal then s else lockPump p .thermal [byte (s.pump p).seq.code] s
  else releaseReasons p s

/-- The seal input has become abnormal or normal (R74). -/
def sealMoved (p : Ix6) (s : State) : State :=
  if (s.pump p).sealProbe.state then raiseKind .pumpSeal p.num [] s else returnKind .pumpSeal p.num s

def Pump.input (q : Pump) : PumpInput → Debounced
  | .feedback => q.feedback | .thermal => q.thermal | .sealProbe => q.sealProbe

def Pump.onInput (i : PumpInput) (f : Debounced → Debounced) (q : Pump) : Pump :=
  match i with
  | .feedback => { q with feedback := f q.feedback }
  | .thermal => { q with thermal := f q.thermal }
  | .sealProbe => { q with sealProbe := f q.sealProbe }

/-- A pump input's debounce timer has expired and the state taken: the change reaches the Sequencer (R60). -/
def pumpInputMoved (p : Ix6) (i : PumpInput) (s : State) : State :=
  match i with
  | .feedback => if (s.pump p).feedback.state then feedbackPresent p s else feedbackAbsent p s
  | .thermal => thermalMoved p s
  | .sealProbe => sealMoved p s

/-! Windows and timers (R65, R70) -/

/-- The start window expires (R65). -/
def startWindowExpires (p : Ix6) (s : State) : State :=
  lockPump p .failStart [byte (s.running.startWindow p)] (s.onPump p fun q => { q with startWindow := none })

/-- A STOPPING pump has come to rest. -/
def restPump (p : Ix6) (s : State) : State := s.onPump p fun q => { q with seq := .idle, stopDone := false }

/-- The stop window expires (R70). -/
def stopWindowExpires (p : Ix6) (s : State) : State :=
  if (s.pump p).feedback.state then enterRunOn .stopping p s
  else
    let s1 := s.onPump p fun q => { q with stopWindow := none, stopDone := true }
    if (s.pump p).runDown.isSome then s1 else restPump p s1

/-- The run-down expires (R70). -/
def runDownExpires (p : Ix6) (s : State) : State :=
  let s1 := s.onPump p fun q => { q with runDown := none }
  if (s.pump p).stopDone then restPump p s1 else s1

/-! Selector (R38, R78) -/

/-- The selector from the two debounced lines (R38). -/
def selectorOf (hand auto : Bool) : Selector :=
  match hand, auto with
  | true, false => .hand
  | false, true => .auto
  | _, _ => .off

def Pump.onLine (l : SelectorLine) (f : Debounced → Debounced) (q : Pump) : Pump :=
  match l with
  | .hand => { q with hand := f q.hand }
  | .auto => { q with auto := f q.auto }

def Pump.line (q : Pump) : SelectorLine → Debounced
  | .hand => q.hand | .auto => q.auto

/-- The pump stands aside in OFF or HAND (R78): contactor open, no claim, every timer cancelled. -/
def Pump.aside (sel : Selector) (q : Pump) : Pump :=
  { q with
    selector := sel, seq := if sel = .hand then .hand else .off, contactor := false, claim := none, startWindow := none
    minRun := none, stopWindow := none, stopDone := false, runDown := none, headTimer := none }

/-- The pump's selector changes (R78). No rule orders the two returns of a pump that stands aside (assumption 14). -/
def moveSelector (p : Ix6) (sel : Selector) (s : State) : State :=
  if sel = .auto then
    let s1 := s.onPump p fun q => { q with selector := sel, seq := .idle }
    if (s.pump p).feedback.state then enterRunOn .selector p s1 else s1
  else
    offerEdges (shedEnds (.pump p) s ++ causeEdge .pumpFailStop p.num ((s.pump p).seq = .runOn) false [])
      (waitNoMore (.pump p) (s.onPump p (Pump.aside sel)))

/-- The selector is derived again from the debounced lines (R38). -/
def deriveSelector (p : Ix6) (s : State) : State :=
  let sel := selectorOf (s.pump p).hand.state (s.pump p).auto.state
  if sel = (s.pump p).selector then s else moveSelector p sel s

/-! The grant (R63, R87) -/

/-- A pump's record at its grant (R40, R41, R63, R87, R89). -/
def Pump.start (c : Settings) (p : Ix6) (now : Stamp) (q : Pump) : Pump :=
  Pump.review (c.startsPerHour p) { q with
    seq := .starting
    contactor := true
    claim := some (c.pumpUnits p)
    history := q.history ++ [now]
    starts := saturate max32 (q.starts + 1)
    startWindow := seconds (c.startWindow p)
    shedMark := false }

/-- The head of the queue is granted to a pump. The caller has taken it off the queue. No rule orders the return of
POWER-SHED and the PUMP-STARTS-LIMIT edge. -/
def grantPump (p : Ix6) (s : State) : State :=
  let s1 := s.onPump p (Pump.start s.running p s.clock.uptime)
  offerEdges (shedEnds (.pump p) s ++ startsEdge (s.running.startsPerHour p) p (s.pump p) (s1.pump p))
    (s1.onPower fun w => { w with stagger := seconds s.running.staggerTime })

/-! Inhibits (R51, R52) -/

/-- A pump's inhibit mark of a party (R51). -/
def Pump.mark (q : Pump) : Party → Bool
  | .panel => q.panelMark
  | .town => q.townMark
  | .nobody => false

def Pump.putMark (party : Party) (v : Bool) (q : Pump) : Pump :=
  match party with
  | .panel => { q with panelMark := v }
  | .town => { q with townMark := v }
  | .nobody => q

/-- The lockout reason of a party's mark. -/
def Party.reason : Party → PumpReason
  | .panel => .panelInhibit
  | _ => .townInhibit

def Pump.inhibited (q : Pump) : Bool := q.panelMark || q.townMark

/-- A clear inhibit mark is set (R51, R52): PUMP-INHIBITED is raised at the first mark, and the reason is added. No rule
orders the raise beside the return of POWER-SHED (assumption 14). -/
def setInhibit (p : Ix6) (party : Party) (s : State) : State :=
  addReason p party.reason (causeEdge .pumpInhibited p.num (s.pump p).inhibited true [byte party.code])
    (s.onPump p (Pump.putMark party true))

/-- A set inhibit mark is cleared (R51, R52): the reason is removed, and PUMP-INHIBITED returned at the last mark. -/
def clearInhibit (p : Ix6) (party : Party) (s : State) : State :=
  let s1 := s.onPump p fun q => { q.putMark party false with locks := q.locks.put party.reason false }
  if (s1.pump p).inhibited then s1 else returnKind .pumpInhibited p.num s1

/-- The returns of the pumps that lose their town mark and keep no panel mark (R52). -/
def townReturns (s : State) : List Edge :=
  (Ix6.all.filter fun p => (s.pump p).townMark && !(s.pump p).panelMark).map fun p => ⟨.pumpInhibited, p.num, none⟩

/-- Every town mark goes, with its reason (R52). -/
def clearTownMarks (s : State) : State :=
  { s with pumps := s.pumps.map fun q => { q with townMark := false, locks := { q.locks with townInhibit := false } } }

/-! Head-blocked (R42, R43) -/

/-- The delay timer's treatment at a period end (R42). -/
def Pump.timeHead (delay : Nat) (q : Pump) : Pump :=
  if q.seq = .running && q.headLimited then
    if q.headTimer.isSome then q else { q with headTimer := seconds delay }
  else { q with headTimer := none }

/-- Whether a head lets a head-blocked pump go (R43). -/
def Settings.headClears (c : Settings) (p : Ix6) (head : Nat) : Bool := head ≤ c.curveHead p 4 - c.headHysteresis p

/-- The delay timers and head-blocked marks at a period end (R42, R43). -/
def headPeriodEnd (s : State) : State :=
  { s with pumps := Six.gen fun p =>
    let q := (s.pump p).timeHead (s.running.headBlockedDelay p)
    { q with headBlocked := q.headBlocked && !s.running.headClears p s.balance.head } }

/-- The PUMP-HEAD-BLOCKED returns between two states (R43). -/
def headEdges (before after : State) : List Edge :=
  (Ix6.all.map fun p => causeEdge .pumpHeadBlocked p.num (before.pump p).headBlocked (after.pump p).headBlocked
    []).flatten

/-- The head-blocked delay expires (R42, R67). -/
def headDelayExpires (p : Ix6) (s : State) : State :=
  let s1 := s.onPump p fun q => { q with headTimer := none, headBlocked := true }
  let s2 := raiseKind .pumpHeadBlocked p.num (bytes2 s.balance.head) s1
  if (s.pump p).seq = .running then stopPump .headBlocked p s2 else s2

end Sys2Proof.Machine
end

