-- ==== Sys2Proof/Machine/Rakes.lean ====
section
/-!
DEFINITION. The Rake Controller's operations: stages, entries to IDLE, HELD, LOCKED and PAUSED, superseding, lockouts and
the completion record (chapter 6). Claims and queue places are settled by the Power Allocator's grants and sheds.
-/

namespace Sys2Proof.Machine

/-! Outputs and records -/

/-- Energise UP or DOWN, or neither (R98). -/
def Screen.drive (d : Option Dir) (sc : Screen) : Screen := { sc with up := d == some .up, down := d == some .down }

def Dir.opposite : Dir → Dir
  | .up => .down
  | .down => .up

/-- Operation code of the completion record (section 12.3). -/
def Operation.code : Operation → Nat
  | .none => 0 | .cycle => 1 | .home _ => 2 | .position _ => 3 | .finish _ => 4

/-- A cycle is in hand: CYCLE or FINISH. -/
def Operation.isCycle : Operation → Bool
  | .cycle | .finish _ => true
  | _ => false

/-- Write the completion record (R116). -/
def writeCompletion (n : Ix2) (operation : Nat) (outcome : RakeOutcome) (cycles : Nat) (s : State) : State :=
  setFlag .screen (s.onScreen n fun sc => { sc with
    completion := some ⟨sc.completion.isSome, operation, outcome, sc.position, cycles, s.clock.station⟩ })

/-! Beginning and ending an operation -/

/-- Begin an operation from rest (R99): the rake is WAITING and joins the claim queue. -/
def beginOp (n : Ix2) (op : Operation) (s : State) : State :=
  joinQueue (.rake n) (s.onScreen n fun sc =>
    { sc.drive none with op := op, retries := 0, cycles := 0, rake := .waiting, saved := none })

/-- The screen at rest in a state: no operation, no claim, motor and grab off, no timer but the input debounce. -/
def Screen.rest (st : RakeState) (sc : Screen) : Screen :=
  { sc.drive none with
    rake := st, op := .none, saved := none, claim := none, grip := false, jamTimer := none, dwell := none, reverse := none }

/-- Enter IDLE: the claim is released. R102's test waits for the grant attempt of that release (`testIdle`). -/
def enterIdle (n : Ix2) (s : State) : State := s.onScreen n fun sc => { sc.rest .idle with untested := true }

/-- The test of a rake that has entered IDLE (R102): a pending trigger or BLOCKED begins a new CYCLE. It comes after the
grant attempt that the release of the claim makes (R84, R86), so a pump at the head of the queue gets its chance between
strokes (assumption 44). -/
def testIdle (n : Ix2) (s : State) : State :=
  let s1 := s.onScreen n fun sc => { sc with untested := false }
  let sc := s.screen n
  if sc.rake = .idle && (sc.pending || sc.blocked) then beginOp n .cycle s1 else s1

/-- Enter HELD: the claim is released and RAKE-HELD is raised with the position (R107). -/
def enterHeld (n : Ix2) (s : State) : State :=
  let s1 := s.onScreen n (Screen.rest .held)
  raiseKind .rakeHeld n.num (bytes2 (s1.screen n).position) s1

/-- A POSITION ends where the rake stands (R107). -/
def finishPosition (n : Ix2) (s : State) : State :=
  enterHeld n (writeCompletion n 3 .complete (s.screen n).cycles s)

/-- HOME is reached: position 0, homed, HOME complete, IDLE (R105). -/
def finishHoming (n : Ix2) (s : State) : State :=
  enterIdle n (writeCompletion n 2 .complete (s.screen n).cycles
    (s.onScreen n fun sc => { sc.drive none with position := 0, homed := true, jamTimer := none }))

/-! Stages -/

/-- Enter a motor state in a direction, with the jam timer started (R100). -/
def energise (n : Ix2) (st : RakeState) (d : Dir) (s : State) : State :=
  s.onScreen n fun sc => { sc.drive (some d) with rake := st, jamTimer := seconds (s.running.jamTime n) }

/-- A new leg with upward count 0, checked against the travel limit in force now (R100, R118). -/
def startLeg (n : Ix2) (d : Dir) (s : State) : State :=
  s.onScreen n fun sc => { sc with leg := d, upCount := 0, legLimit := s.running.travelLimit n }

/-- GRIPPING: motor off, GRIP on, dwell (R101). -/
def enterGripping (n : Ix2) (s : State) : State :=
  s.onScreen n fun sc =>
    { sc.drive none with rake := .gripping, jamTimer := none, grip := true, dwell := seconds (s.running.gripDwell n) }

/-- DISCHARGING: motor off, position 0, GRIP off, dwell (R101). -/
def enterDischarging (n : Ix2) (s : State) : State :=
  s.onScreen n fun sc =>
    { sc.drive none with
      rake := .discharging, jamTimer := none, position := 0, grip := false, dwell := seconds (s.running.dischargeDwell n) }

/-- A motor stage in hand, whose own limit may already be made: it then ends at once (R100, R110). -/
def checkLimit (n : Ix2) (s : State) : State :=
  let sc := s.screen n
  match sc.rake with
  | .descending => if sc.bottom.state then enterGripping n s else s
  | .ascending => if sc.home.state then enterDischarging n s else s
  | .homing => if sc.home.state then finishHoming n s else s
  | .positioning =>
    if sc.up && sc.home.state then finishPosition n (s.onScreen n fun sc => { sc with position := 0 })
    else if sc.down && sc.bottom.state then finishPosition n s
    else s
  | _ => s

/-- Enter a stage on a new leg. -/
def beginLeg (n : Ix2) (st : RakeState) (d : Dir) (s : State) : State :=
  checkLimit n (energise n st d (startLeg n d s))

/-- The first stage of the operation in hand (R100), clearing the pending trigger flag where it is a cycle (R99). -/
def firstStage (n : Ix2) (s : State) : State :=
  match (s.screen n).op with
  | .cycle | .finish _ => beginLeg n .descending .down (s.onScreen n fun sc => { sc with pending := false })
  | .home _ => beginLeg n .homing .up s
  | .position p =>
    if p = (s.screen n).position then finishPosition n s
    else if p < (s.screen n).position then beginLeg n .positioning .up s
    else beginLeg n .positioning .down s
  | .none => s

/-- The stage a reverse interrupted: the one whose motor runs in the interrupted direction (R112). -/
def interruptedStage (op : Operation) (d : Dir) : RakeState :=
  match op, d with
  | .home _, _ => .homing
  | .position _, _ => .positioning
  | _, .down => .descending
  | _, .up => .ascending

/-- The reverse ends and the interrupted stage resumes (R112). -/
def endReverse (n : Ix2) (s : State) : State :=
  let sc := s.screen n
  energise n (interruptedStage sc.op sc.interrupted) sc.interrupted (s.onScreen n fun sc => { sc with reverse := none })

/-- REVERSING: the other direction is energised, with the reverse and jam timers started (R112). -/
def enterReversing (n : Ix2) (s : State) : State :=
  energise n .reversing (s.screen n).interrupted.opposite
    (s.onScreen n fun sc => { sc with reverse := seconds (s.running.reverseTime n) })

/-- A limit ends a reverse; HOME reached going up sets the position to 0 (R112). -/
def limitInReverse (n : Ix2) (home : Bool) (s : State) : State :=
  endReverse n (if home && (s.screen n).up then s.onScreen n fun sc => { sc with position := 0 } else s)

/-- A PAUSED rake enters its saved stage on its new claim (R110): motors in the saved direction with the jam timer
afresh, dwell and reverse timers in full, and a limit found made ends the stage at once. -/
def resumeStage (n : Ix2) (st : RakeState) (s : State) : State :=
  let sc := s.screen n
  match st with
  | .gripping => s.onScreen n fun sc => { sc with rake := .gripping, dwell := seconds (s.running.gripDwell n) }
  | .discharging =>
    s.onScreen n fun sc => { sc with rake := .discharging, dwell := seconds (s.running.dischargeDwell n) }
  | .reversing =>
    let s1 := enterReversing n s
    if (s1.screen n).up && sc.home.state then limitInReverse n true s1
    else if (s1.screen n).down && sc.bottom.state then limitInReverse n false s1
    else s1
  | .descending => checkLimit n (energise n .descending .down s)
  | .ascending => checkLimit n (energise n .ascending .up s)
  | .homing => checkLimit n (energise n .homing .up s)
  | .positioning => checkLimit n (energise n .positioning sc.leg s)
  | _ => s

/-- A grant reaches a rake (R100, R110): it holds a claim for rake_units, and enters its first or its saved stage. The
caller has taken it off the queue. What the stage changes follows from the grant (R86, R123), and so comes after the return
of POWER-SHED that the grant makes (DEDUCED, assumption 14). -/
def grantRake (n : Ix2) (s : State) : State :=
  let s1 := clearShed (.rake n) (s.onScreen n fun sc => { sc with claim := some (s.running.rakeUnits n) })
  match (s1.screen n).rake, (s1.screen n).saved with
  | .paused, some st => resumeStage n st (s1.onScreen n fun sc => { sc with saved := none })
  | _, _ => firstStage n s1

/-- A shed reaches a rake (R110): the claim is taken back, the stage saved, and the rake PAUSED and queued (R85). -/
def pauseRake (n : Ix2) (s : State) : State :=
  joinQueue (.rake n) (s.onScreen n fun sc =>
    { sc.drive none with
      claim := none, jamTimer := none, dwell := none, reverse := none, saved := some sc.rake, rake := .paused })

/-! Lockouts -/

/-- The rake is in the claim queue: WAITING or PAUSED (R85). -/
def Screen.queued (sc : Screen) : Bool := sc.rake = .waiting || sc.rake = .paused

/-- Entry to LOCKED (R113), but for its edges. -/
def enterLocked (n : Ix2) (outcome : RakeOutcome) (s : State) : State :=
  let sc := s.screen n
  let s1 := if sc.queued then waitNoMore (.rake n) s else s
  (writeCompletion n sc.op.code outcome sc.cycles s1).onScreen n (Screen.rest .locked)

/-- The returns of an entry to LOCKED: POWER-SHED where a queued rake's shed mark was the last, RAKE-HELD from HELD (R89,
R113). -/
def lockedReturns (n : Ix2) (s : State) : List Edge :=
  (if (s.screen n).queued then shedEnds (.rake n) s else []) ++
  causeEdge .rakeHeld n.num ((s.screen n).rake = .held) false []

/-- The latched reasons of a rake (section 6.11). -/
inductive RakeReason
  | jam | overload | travel
  deriving DecidableEq, Repr

def RakeReason.kind : RakeReason → Kind
  | .jam => .rakeJam | .overload => .rakeOverload | .travel => .rakeTravel

def RakeReason.outcome : RakeReason → RakeOutcome
  | .jam => .jammed | .overload => .overload | .travel => .travel

/-- The reason whose record is of a kind. -/
def rakeReason? : Kind → Option RakeReason
  | .rakeJam => some .jam | .rakeOverload => some .overload | .rakeTravel => some .travel
  | _ => none

def RakeLocks.has (l : RakeLocks) : RakeReason → Bool
  | .jam => l.jam | .overload => l.overload | .travel => l.travel

def RakeLocks.put (l : RakeLocks) (r : RakeReason) (v : Bool) : RakeLocks :=
  match r with
  | .jam => { l with jam := v }
  | .overload => { l with overload := v }
  | .travel => { l with travel := v }

def RakeLocks.empty (l : RakeLocks) : Bool := !l.jam && !l.overload && !l.travel

/-- Add a reason to a rake's lockout set with its mark clear, raise its condition, and lock a rake not yet LOCKED
(R111, R112, R113). No rule orders the raise and the returns of the entry to LOCKED (assumption 14). -/
def lockRake (n : Ix2) (r : RakeReason) (extra : List Byte) (s : State) : State :=
  let s1 := s.onScreen n fun sc => { sc with locks := sc.locks.put r true, acks := sc.acks.put r false }
  let raised : Edge := ⟨r.kind, n.num, some extra⟩
  if (s1.screen n).rake = .locked then offerEdges [raised] s1
  else offerEdges (raised :: lockedReturns n s1) (enterLocked n r.outcome s1)

/-- The input of a reason is normal (R114). -/
def rakeInputNormal (sc : Screen) : RakeReason → Bool
  | .overload => !sc.overload.state
  | _ => true

/-- Both halves of a reason's release are complete (R114). -/
def Screen.releasable (sc : Screen) (r : RakeReason) : Bool := sc.locks.has r && sc.acks.has r && rakeInputNormal sc r

/-- Release the reasons of a rake that have both halves (R114): the returns of their conditions, and from an empty set
UNHOMED and the automatic HOME (R105). A released reason's acknowledged mark is left as it stands until the reason is next
added (DESIGN CHOICE, assumption 34). -/
def releaseRake (n : Ix2) (s : State) : State :=
  let rs := [RakeReason.jam, .overload, .travel].filter (s.screen n).releasable
  let s1 := offerEdges (rs.map fun r => ⟨r.kind, n.num, none⟩)
    (s.onScreen n fun sc => { sc with locks := rs.foldl (fun l r => l.put r false) sc.locks })
  if (s1.screen n).locks.empty && (s1.screen n).rake = .locked then
    beginOp n (.home true) (s1.onScreen n fun sc => { sc with rake := .unhomed, homed := false })
  else s1

/-- A record-acknowledged notice reaches a rake (R114). -/
def rakeNotice (n : Ix2) (r : RakeReason) (s : State) : State :=
  if (s.screen n).locks.has r then releaseRake n (s.onScreen n fun sc => { sc with acks := sc.acks.put r true }) else s

/-! Superseding (R109) -/

/-- A command takes the place of the operation in hand, the cycle in hand not carrying on. -/
def supersede (n : Ix2) (op : Operation) (s : State) : State :=
  let sc := s.screen n
  let s1 := (writeCompletion n sc.op.code .superseded sc.cycles s).onScreen n fun sc =>
    { sc with
      grip := if sc.op.isCycle then false else sc.grip
      dwell := none
      reverse := none
      jamTimer := none
      saved := none
      op := op
      retries := 0
      cycles := 0 }
  if sc.rake = .waiting || sc.rake = .paused then s1.onScreen n fun sc => { sc with rake := .waiting }
  else firstStage n s1

/-- A HOME with HOME already made completes at once (R106, R109): the rake leaves the queue or releases its claim, and
enters IDLE. -/
def homeAtOnce (n : Ix2) (s : State) : State :=
  finishHoming n (quitQueue (.rake n) (s.onScreen n fun sc => { sc with op := .home false, retries := 0, cycles := 0 }))

/-! The rake commands -/

/-- RAKE CYCLE on screen n (R104). A FINISH in hand is superseded and its cycle carries on: it keeps its stage, PAUSED and
the saved stage among them, its timers and its counts, although R109 speaks of a superseded PAUSED rake as WAITING with
its timers cancelled (DEDUCED from R104 and R108, assumption 21). -/
def takeRakeCycle (n : Ix2) (s : State) : ReplyCode × State :=
  let sc := s.screen n
  if sc.rake = .locked || !sc.homed then (.wrongState, s)
  else if sc.rake = .idle then (.done, beginOp n .cycle s)
  else if sc.rake = .held then (.done, beginOp n .cycle (returnKind .rakeHeld n.num s))
  else
    match sc.op with
    | .cycle =>
      if sc.pending then (.already, s) else (.done, s.onScreen n fun sc => { sc with pending := true })
    | .finish _ =>
      (.done, (writeCompletion n 4 .superseded sc.cycles s).onScreen n fun sc => { sc with op := .cycle })
    | _ => (.done, supersede n .cycle s)

/-- RAKE HOME on screen n (R106). -/
def takeRakeHome (n : Ix2) (s : State) : ReplyCode × State :=
  let sc := s.screen n
  if sc.rake = .locked then (.wrongState, s)
  else if sc.rake = .idle || !sc.homed then (.already, s)
  else if sc.rake = .held then
    let s1 := returnKind .rakeHeld n.num s
    (.done, if sc.home.state then homeAtOnce n s1 else beginOp n (.home false) s1)
  else
    match sc.op with
    | .home _ => (.already, s)
    | _ =>
      if sc.home.state then
        (.done, homeAtOnce n ((writeCompletion n sc.op.code .superseded sc.cycles s).onScreen n fun sc =>
          { sc with dwell := none, reverse := none, jamTimer := none, saved := none }))
      else (.done, supersede n (.home false) s)

/-- RAKE POSITION on screen n with target p (R107). -/
def takeRakePosition (n : Ix2) (p : Nat) (s : State) : ReplyCode × State :=
  let sc := s.screen n
  if s.running.maxTravel n < p then (.outOfRange, s)
  else if sc.rake = .locked || sc.rake = .held || !sc.homed then (.wrongState, s)
  else if sc.rake = .idle then
    if p = 0 then (.done, finishPosition n (s.onScreen n fun sc => { sc with retries := 0, cycles := 0 }))
    else (.done, beginOp n (.position p) s)
  else (.done, supersede n (.position p) s)

/-- RAKE FINISH on screen n with count k (R108). A cycle in hand, be it of a CYCLE or of a superseded FINISH, carries on: it
keeps its stage, PAUSED and the saved stage among them, its timers and its retries used (R109 speaks of WAITING and of
cancelled timers; DEDUCED from R108, assumption 21). -/
def takeRakeFinish (n : Ix2) (k : Nat) (s : State) : ReplyCode × State :=
  let sc := s.screen n
  let count := if k = 0 then s.running.finishDefault n else k
  if 5 < k then (.outOfRange, s)
  else if sc.rake = .locked || sc.rake = .held || !sc.homed then (.wrongState, s)
  else if sc.rake = .idle then (.done, beginOp n (.finish (count - 1)) s)
  else
    match sc.op with
    | .cycle => (.done, s.onScreen n fun sc => { sc with op := .finish (count - 1) })
    | .finish _ =>
      (.done, (writeCompletion n 4 .superseded sc.cycles s).onScreen n fun sc =>
        { sc with op := .finish (count - 1), cycles := 0 })
    | _ => (.done, supersede n (.finish (count - 1)) s)

/-! Period end -/

/-- The interval of the inflow class, in minutes (R103). -/
def Settings.interval (c : Settings) (n : Ix2) : InflowClass → Nat
  | .dry => c.intervalDry n
  | .wet => c.intervalWet n
  | .storm => c.intervalStorm n

/-- The differential of a screen (R97): INLET less the channel downstream of the screen, channels 1 and n + 1. -/
def formDifferential (n : Ix2) (s : State) : State :=
  let inlet := s.level.channels.a1
  let down := match n with
    | .i1 => s.level.channels.a2
    | .i2 => s.level.channels.a3
  if inlet.period = .valid && down.period = .valid then
    s.onScreen n fun sc =>
      { sc with differential := inlet.held.getD 0 - down.held.getD 0, diffStale := false }
  else s.onScreen n fun sc => { sc with diffStale := true }

/-- Whether BLOCKED is set after the test of R97. -/
def blockedAfter (c : Settings) (n : Ix2) (sc : Screen) : Bool :=
  if sc.diffStale then sc.blocked
  else if c.blockedLevel n ≤ sc.differential then true
  else if sc.differential + 50 ≤ c.blockedLevel n then false
  else sc.blocked

/-- The test of BLOCKED on the differential just formed (R97): a queued rake whose screen becomes BLOCKED moves (R85). -/
def testBlocked (n : Ix2) (s : State) : State :=
  let b := blockedAfter s.running n (s.screen n)
  let s1 := s.onScreen n fun sc => { sc with blocked := b }
  if b && !(s.screen n).blocked then moveBlockedRake n s1 else s1

/-- The differentials and BLOCKED flags of both screens at a period end (R97), screen 1 first where both queued rakes move
(assumption 13). -/
def formScreens (s : State) : State := Ix2.all.foldl (fun s n => testBlocked n (formDifferential n s)) s

/-- The SCREEN-BLOCKED edges between two states (R97). -/
def blockedEdges (before after : State) : List Edge :=
  (Ix2.all.map fun n => causeEdge .screenBlocked n.num (before.screen n).blocked (after.screen n).blocked
    (bytes2 (after.screen n).differential)).flatten

/-- An automatic trigger holds for a rake at this period end (R103). -/
def triggered (n : Ix2) (s : State) : Bool :=
  let sc := s.screen n
  (!sc.diffStale && s.running.triggerLevel n ≤ sc.differential) || sc.blocked ||
    (sc.rake = .idle &&
      60 * s.running.interval n s.balance.cls ≤ secondsSince s.clock.uptime.secs sc.lastCycleEnd)

/-- The trigger test of a rake (R103). -/
def testTriggers (n : Ix2) (s : State) : State :=
  if triggered n s then
    if (s.screen n).rake = .idle then beginOp n .cycle s
    else s.onScreen n fun sc => { sc with pending := true }
  else s

/-- The automatic triggers of both rakes at a period end (R103), screen 1 before screen 2 (DESIGN CHOICE, assumption 13:
R119 gives that order at cold start only). -/
def testAllTriggers (s : State) : State := Ix2.all.foldl (fun s n => testTriggers n s) s

end Sys2Proof.Machine
end

