-- ==== Sys2Proof/Machine/Acknowledge.lean ====
section
/-!
DEFINITION. Acknowledgement with its notices, retirement, RESET LOCKOUT and the commands over many records (R77, R115,
R128 to R130, R140, R141).
-/

namespace Sys2Proof.Machine

/-! LINK-PROTOCOL (R189) -/

/-- The cause of LINK-PROTOCOL is released, and the return offered. -/
def releaseProtocol (s : State) : State :=
  returnKind .linkProtocol 0 (s.onLink fun l => { l with protocolCause := false })

/-- A record-acknowledged notice reaches the Town Link. -/
def linkNotice (s : State) : State :=
  if s.link.protocolCause then releaseProtocol (s.onLink fun l => { l with protocolAck := true }) else s

/-! Acknowledgement (R128, R129) -/

/-- A record-acknowledged notice goes to the block that owns the lockout (R129). -/
def sendNotice (k : Key) (s : State) : State :=
  match pumpReason? k.kind, rakeReason? k.kind with
  | some r, _ =>
    match six? k.number with
    | some p => pumpNotice p r s
    | none => s
  | none, some r =>
    match two? k.number with
    | some n => rakeNotice n r s
    | none => s
  | none, none => if k.kind = .linkProtocol then linkNotice s else s

/-- The state an acknowledgement takes a record to (R128). -/
def RecState.acknowledge : RecState → RecState
  | .raised => .acked | .returned => .dormant | .acked => .acked | .dormant => .dormant

/-- The change an acknowledgement makes to a record. -/
def Record.acknowledge (party : Party) (r : Record) : Record :=
  { r with state := r.state.acknowledge, ackBy := party }

/-- An acknowledgement taken on the record in a slot (R128, R129). -/
def ackRecord (i : Nat) (party : Party) (s : State) : ReplyCode × State :=
  match (s.table.slot i).record with
  | none => (.already, s)
  | some r =>
    match r.state with
    | .raised =>
      let s1 := changeRecord i (Record.acknowledge party) s
      (.done, if r.key.kind.latched then sendNotice r.key s1 else s1)
    | .returned =>
      let s1 := changeRecord i (Record.acknowledge party) s
      (.done, if i = 0 then s1 else serve s1)
    | _ => (.already, s)

/-- ACKNOWLEDGE by handle, from either port (R122, R128). -/
def takeAcknowledge (slot gen : Nat) (party : Party) (s : State) : ReplyCode × State :=
  match s.table.resolve slot gen with
  | .ok i => ackRecord i party s
  | .error o => (o, s)

/-- RETIRE by handle, from either port (R122, R130). -/
def takeRetire (slot gen : Nat) (s : State) : ReplyCode × State :=
  match s.table.resolve slot gen with
  | .ok i => if (s.table.slot i).dormantOrder?.isSome then (.done, retireSlot i s) else (.notDormant, s)
  | .error o => (o, s)

/-! Commands over many records (R140, R141) -/

/-- Whether a record is one ACKNOWLEDGE ALL takes (R140). -/
def Record.answersAll (minimum : Severity) (cls : Option SourceClass) (shelved : Bool) (r : Record) : Bool :=
  (r.state = .raised || r.state = .returned) && r.severity.atLeast minimum &&
    (cls.isNone || cls = some r.key.kind.cls) && (shelved || !r.shelved)

/-- The handles of the records ACKNOWLEDGE ALL takes, in slot order (R140). -/
def ackSet (minimum : Severity) (cls : Option SourceClass) (shelved : Bool) (t : Table) : List (Nat × Nat) :=
  ((List.range 48).filter fun i => (t.slot i).record.any (Record.answersAll minimum cls shelved)).map
    fun i => (i, (t.slot i).gen)

/-- One record of the set is acknowledged, if it still stands in its slot; the count of those acknowledged goes along. -/
def ackNext (a : Nat × State) (h : Nat × Nat) : Nat × State :=
  if (a.2.table.slot h.1).gen = h.2 then
    let r := ackRecord h.1 .panel a.2
    (if r.1 = .done then a.1 + 1 else a.1, r.2)
  else a

/-- ACKNOWLEDGE ALL (R140), with the count of records acknowledged. -/
def takeAckAll (minimum : Severity) (cls : Option SourceClass) (shelved : Bool) (s : State) :
    ReplyCode × Nat × State :=
  match ackSet minimum cls shelved s.table with
  | [] => (.already, 0, s)
  | h :: hs =>
    let r := (h :: hs).foldl ackNext (0, s)
    (.done, r.1, r.2)

/-- The slots whose records are DORMANT, in slot order. -/
def dormantSlots (t : Table) : List Nat := (List.range 48).filter fun i => (t.slot i).dormantOrder?.isSome

/-- RETIRE DORMANT (R141), with the count of records retired. -/
def takeRetireDormant (s : State) : Nat × State :=
  let slots := dormantSlots s.table
  let s1 := slots.foldl (fun s i => removeRecord i s) s
  let s2 := setFlag .condition (s1.onTable fun t => { t with raisedSinceClear := 0, lastClear := s.clock.station })
  (slots.length, serve s2)

/-! RESET LOCKOUT (R77, R115) -/

/-- The seated records of some keys that are in RAISED are acknowledged by the panel, in slot order, without notices:
the reset sets the marks itself. -/
def ackRaised (ks : List Key) (s : State) : State :=
  (List.range 48).foldl (fun s i =>
    match (s.table.slot i).record with
    | some r => if r.state = .raised && ks.contains r.key then changeRecord i (Record.acknowledge .panel) s else s
    | none => s) s

/-- RESET LOCKOUT on a pump (R77). -/
def resetPump (p : Ix6) (s : State) : ReplyCode × State :=
  let held := latchedReasons.filter (s.pump p).locks.has
  if held = [] then (.already, s)
  else
    let s1 := s.onPump p fun q => { q with acks := held.foldl (fun a r => a.put r true) q.acks }
    (.done, releaseReasons p (ackRaised (held.map fun r => ⟨r.kind, p.num⟩) s1))

/-- RESET LOCKOUT on a rake (R115). -/
def resetRake (n : Ix2) (s : State) : ReplyCode × State :=
  let held := [RakeReason.jam, .overload, .travel].filter (s.screen n).locks.has
  if held = [] then (.already, s)
  else
    let s1 := s.onScreen n fun sc => { sc with acks := held.foldl (fun a r => a.put r true) sc.acks }
    (.done, releaseRake n (ackRaised (held.map fun r => ⟨r.kind, n.num⟩) s1))

/-- RESET LOCKOUT (R77, R115). -/
def takeReset (cls number : Nat) (s : State) : ReplyCode × State :=
  match classOf? cls, six? number, two? number with
  | some .pump, some p, _ => resetPump p s
  | some .screen, _, some n => resetRake n s
  | _, _, _ => (.outOfRange, s)

end Sys2Proof.Machine
end

