-- ==== Sys2Proof/Machine/Annunciator.lean ====
section
/-!
DEFINITION. The Annunciator: horn demand, beacon, common-fault relay and lamp aspects, each formed from the records
(chapter 8).
-/

namespace Sys2Proof.Machine

/-- The seated records. -/
def Table.records (t : Table) : List Record := t.slots.filterMap Slot.record

/-- RAISED or RETURNED: not acknowledged. -/
def Record.unseen (r : Record) : Bool := r.state = .raised || r.state = .returned

/-- RAISED, ACKED or RETURNED: not DORMANT. -/
def Record.undone (r : Record) : Bool := r.state ≠ .dormant

/-- The horn demand (R146). -/
def hornDemand (s : State) : Bool := s.table.records.any fun r => r.sounds s.running && r.unseen

/-- The beacon (R148). -/
def beaconOn (s : State) : Bool := s.table.records.any fun r => !r.shelved && r.severity = .critical && r.undone

/-- The common-fault relay, energised (R149). -/
def relayOn (s : State) : Bool :=
  s.level.anyPeriodEnd && !s.table.records.any fun r => !r.shelved && r.severity.atLeast .major && r.undone

/-- Whether a record matches a condition selector (R150). -/
def Record.selected (r : Record) (cls number kind : Nat) : Bool :=
  r.key.kind.cls.code = cls && r.key.kind.code = kind && (number = 0 || r.key.number = number)

/-- The aspect of a lamp from its matching unshelved records (R150). -/
def aspectOf (rs : List Record) : Aspect :=
  if rs.any Record.unseen then .flash else if rs.any fun r => r.state = .acked then .steady else .off

/-- The aspect of a lamp with a given assignment (R150, R151). -/
def lampAspect (s : State) (v : Nat) : Aspect :=
  let shown := s.table.records.filter fun r => !r.shelved
  match lampType v with
  | 1 => aspectOf (shown.filter fun r => r.selected (lampClass v) (lampNumber v) (lampKind v))
  | 2 =>
    match six? (lampNumber v) with
    | some p => if (s.pump p).feedback.state then .steady else .off
    | none => .off
  | 3 => aspectOf (shown.filter fun r => r.key = ⟨.panelPosted, lampNumber v⟩)
  | _ => .off

/-- Re-form the silence, the horn, the beacon, the relay and the lamps (R146 to R151). -/
def annunciate (s : State) : State :=
  let demand := hornDemand s
  s.onAnn fun a => { a with
    silence := a.silence && demand
    horn := demand && !a.silence
    beacon := beaconOn s
    relay := relayOn s
    lamps := (List.range 16).map fun i => lampAspect s (s.running.lamp (i + 1)) }

/-- SILENCE (R147), on a horn as it was last formed. -/
def takeSilence (s : State) : ReplyCode × State :=
  if hornDemand s && !s.ann.silence then (.done, s.onAnn fun a => { a with silence := true, horn := false })
  else (.already, s)

/-! Whether a lamp is driven on (R151) -/

/-- A lamp's drive: on while STEADY, and in FLASH with the flash phase. -/
def Annunciator.driven (a : Annunciator) : List Bool :=
  a.lamps.map fun x =>
    match x with
    | .off => false
    | .steady => true
    | .flash => a.flashOn

end Sys2Proof.Machine
end

