-- ==== Sys2Proof/Machine/Level.lean ====
section
/-!
DEFINITION. Level Acquisition: sample rounds, scaling, period values, well level selection, level mode and the high
levels (chapter 1).
-/

namespace Sys2Proof.Machine

/-! Rounds (R1 to R4) -/

/-- Whether a REFERENCE sample makes its round good (R2). -/
def goodReference (raw : Nat) : Bool := 2007 ≤ raw && raw ≤ 2089

/-- Status of an external sample of a good round (R4). -/
def sampleStatus (raw : Nat) : SampleStatus :=
  if raw < 655 then .broken else if raw < 819 then .under else if raw < 4080 then .valid else .over

/-- Scaled level of an external sample of a good round, or none where it counts as no valid sample (R4). -/
def scaled? (offset span raw : Nat) : Option Nat :=
  match sampleStatus raw with
  | .valid => some (min 16000 (offset + (raw - 819) * span / 3276))
  | .under => some offset
  | _ => none

/-- A channel takes its sample of a good round (R1, R4). -/
def Channel.judge (raw : Nat) (c : Channel) : Channel :=
  match scaled? c.offset c.span raw with
  | some v => { c with raw := raw, sample := sampleStatus raw, sum := c.sum + v, count := c.count + 1 }
  | none => { c with raw := raw, sample := sampleStatus raw }

/-- A channel takes its sample of a discarded round (R1, R2). -/
def Channel.discard (raw : Nat) (c : Channel) : Channel := { c with raw := raw, sample := .discarded }

/-- The seven samples of a round are judged together (R1 to R4). -/
def judgeRound (samples : Six (BitVec 12)) (reference : BitVec 12) (s : State) : State :=
  let ref := reference.toNat
  if goodReference ref then
    let s1 := s.onLevel fun l => { l with
      refRaw := ref
      refSample := .valid
      discarded := 0
      good := saturate 255 (l.good + 1)
      channels := Six.gen fun n => (l.channels.get n).judge (samples.get n).toNat }
    if s1.level.acquisitionFault && 10 ≤ s1.level.good then
      returnKind .acquisitionFault 0 (s1.onLevel fun l => { l with acquisitionFault := false })
    else s1
  else
    let s1 := s.onLevel fun l => { l with
      refRaw := ref
      refSample := .discarded
      good := 0
      discarded := saturate 255 (l.discarded + 1)
      channels := Six.gen fun n => (l.channels.get n).discard (samples.get n).toNat }
    if !s1.level.acquisitionFault && 3 ≤ s1.level.discarded then
      raiseKind .acquisitionFault 0 (bytes2 ref) (s1.onLevel fun l => { l with acquisitionFault := true })
    else s1

/-- A round-complete event (R1): its samples are judged, it counts in its period, and the next round is 100 ms away. -/
def takeRound (samples : Six (BitVec 12)) (reference : BitVec 12) (s : State) : State :=
  judgeRound samples reference (s.onLevel fun l => { l with roundTimer := some 10, rounds := l.rounds + 1 })

/-- The round just taken is the last of its period (R5). -/
def periodComplete (s : State) : Bool := 10 * s.level.periodSecs ≤ s.level.rounds

/-! Period values (R5 to R7) -/

/-- A channel's period status and value from its count and sum (R6). -/
def Channel.formPeriod (p : Nat) (c : Channel) : Channel :=
  if 5 * p ≤ c.count then { c with period := .valid, held := some (c.sum / c.count) }
  else { c with period := if c.held.isSome then .stale else .none }

/-- The counts of invalid and valid periods, and the cause of SENSOR-FAULT (R7). -/
def Channel.countPeriod (c : Channel) : Channel :=
  if c.period = .valid then
    { c with invalid := 0, valid := saturate 255 (c.valid + 1), fault := c.fault && saturate 255 (c.valid + 1) < 2 }
  else
    { c with
      valid := 0
      invalid := saturate 255 (c.invalid + 1)
      fault := c.fault || 2 ≤ saturate 255 (c.invalid + 1) }

/-- Channel n ready for the next period: accumulator and count at zero, scaling from the running set (R5, R15). -/
def Channel.nextPeriod (c : Settings) (n : Ix6) (ch : Channel) : Channel :=
  { ch with sum := 0, count := 0, offset := c.offset n, span := c.span n }

/-- The period values and statuses are formed (R6, R7), and the next period begins (R5, R15). -/
def Level.formPeriods (c : Settings) (l : Level) : Level :=
  { l with
    channels := Six.gen fun n => ((l.channels.get n).formPeriod l.periodSecs).countPeriod.nextPeriod c n
    rounds := 0
    periodSecs := c.balancePeriod }

/-! The well level (R9, R10) -/

/-- A channel's value while its period status is VALID. -/
def Channel.validValue? (c : Channel) : Option Nat := if c.period = .valid then c.held else none

/-- The higher of two levels less the lower. -/
def apart (a b : Nat) : Nat := (a - b) + (b - a)

/-- The well level from the two transmitters (R9). -/
def selectLevel (band : Nat) : Option Nat → Option Nat → Option Nat
  | some a, some b => if apart a b ≤ band then some ((a + b) / 2) else some (max a b)
  | some a, none => some a
  | none, some b => some b
  | none, none => none

/-- The cause of WELL-DISAGREE from the two transmitters; it stands where fewer than two are VALID (R10). -/
def disagreeAfter (band : Nat) (was : Bool) : Option Nat → Option Nat → Bool
  | some a, some b => decide (band < apart a b)
  | _, _ => was

/-- The well level is selected, and the cause of WELL-DISAGREE follows (R9, R10). -/
def Level.selectWell (c : Settings) (l : Level) : Level :=
  let a := l.channels.a4.validValue?
  let b := l.channels.a5.validValue?
  { l with
    wellLevel := selectLevel c.agreementBand a b
    wellDisagree := disagreeAfter c.agreementBand l.wellDisagree a b }

/-! The level mode (R11) -/

/-- The level mode and the cause of FLOAT-MODE from the selection (R11), and the mark that a period end has been taken. -/
def Level.setMode (l : Level) : Level :=
  let l1 := { l with anyPeriodEnd := true }
  match l.wellLevel, l.mode with
  | none, .level => { l1 with mode := .float, floatMode := true }
  | none, .float => { l1 with floatMode := l.floatMode || l.anyPeriodEnd }
  | some _, .float => { l1 with mode := .level, floatMode := false }
  | some _, .level => l1

/-! High levels (R12, R13) -/

/-- The cause of HIGH-LEVEL after a valid well level v (R12). -/
def highLevelAfter (setpoint v : Nat) (was : Bool) : Bool :=
  if setpoint ≤ v then true else if v + 50 ≤ setpoint then false else was

/-- The cause of HIGH-HIGH from its two parts (R13). -/
def Level.formHighHigh (l : Level) : Level := { l with highHighCause := l.hhFloatPart || l.hhLevelPart }

/-- HIGH-LEVEL and the level part of HIGH-HIGH from the well level (R12, R13); UNKNOWN leaves both. -/
def Level.testHigh (c : Settings) (l : Level) : Level :=
  match l.wellLevel with
  | none => l
  | some v => Level.formHighHigh { l with
      highLevel := highLevelAfter c.highSetpoint v l.highLevel
      hhLevelPart := decide (c.hhSetpoint ≤ v) }

/-- The well level as it is sent, 65535 for UNKNOWN (R200). -/
def Level.levelWord (l : Level) : Nat := l.wellLevel.getD 65535

/-- The HIGH-HIGH edge between two states of the block, with the parts and the level at the event (R13). -/
def highHighEdge (before after : Level) : List Edge :=
  causeEdge .highHigh 0 before.highHighCause after.highHighCause
    (byte (bits [after.hhFloatPart, after.hhLevelPart]) :: bytes2 after.levelWord)

/-! The period end -/

/-- Level Acquisition's values after a period end (R5 to R7, R9 to R13). -/
def Level.periodEnd (c : Settings) (l : Level) : Level := (((l.formPeriods c).selectWell c).setMode).testHigh c

/-- The edges of Level Acquisition's causes over a period end (R7, R10 to R13). -/
def levelEdges (before after : Level) : List Edge :=
  (Ix6.all.map fun n => causeEdge .sensorFault n.num (before.channels.get n).fault (after.channels.get n).fault
    (bytes2 (after.channels.get n).raw)).flatten ++
  causeEdge .wellDisagree 0 before.wellDisagree after.wellDisagree
    (bytes2 (after.channels.a4.held.getD 0) ++ bytes2 (after.channels.a5.held.getD 0)) ++
  causeEdge .floatMode 0 before.floatMode after.floatMode [] ++
  causeEdge .highLevel 0 before.highLevel after.highLevel (bytes2 after.levelWord) ++
  highHighEdge before after

/-- Level Acquisition's part of a period end, up to what R14 hands on. No rule orders the edges of R7 and R10 to R13 among
themselves, so they go in slot order (R123, assumption 14). -/
def levelPeriodEnd (s : State) : State :=
  let s1 := s.onLevel (Level.periodEnd s.running)
  offerEdges (levelEdges s.level s1.level) s1

/-! Floats (R8) -/

def Level.float (l : Level) : FloatId → Debounced
  | .low => l.low | .high => l.high | .highHigh => l.highHigh

def Level.onFloat (f : FloatId) (g : Debounced → Debounced) (l : Level) : Level :=
  match f with
  | .low => { l with low := g l.low }
  | .high => { l with high := g l.high }
  | .highHigh => { l with highHigh := g l.highHigh }

/-- The float part of HIGH-HIGH follows the debounced HIGH-HIGH float (R13). -/
def followHighHighFloat (s : State) : State :=
  let s1 := s.onLevel fun l => Level.formHighHigh { l with hhFloatPart := l.highHigh.state }
  offerEdges (highHighEdge s.level s1.level) s1

end Sys2Proof.Machine
end

