-- ==== Sys2Proof/Machine/Balance.lean ====
section
/-!
DEFINITION. Station Balance: the seven stages of the station computation and the tallies (chapter 2).
-/

namespace Sys2Proof.Machine

/-! Volume (R19) -/

/-- Segment i of the stage-storage table at a level inside it. -/
def Settings.segmentVolume (c : Settings) (i level : Nat) : Nat :=
  c.tableVolume i +
    (level - c.tableLevel i) * (c.tableVolume (i + 1) - c.tableVolume i) / (c.tableLevel (i + 1) - c.tableLevel i)

/-- Well volume at a level, and the above-table flag (R19). -/
def Settings.volumeAt (c : Settings) (level : Nat) : Nat × Bool :=
  if level < c.tableLevel 0 then (c.tableVolume 0, false)
  else if c.tableLevel 7 < level then (c.tableVolume 7, true)
  else
    match [0, 1, 2, 3, 4, 5, 6].find? (fun i => c.tableLevel i ≤ level && level < c.tableLevel (i + 1)) with
    | some i => (c.segmentVolume i level, false)
    | none => (c.tableVolume 7, false)

/-- Stage 1 (R19). -/
def stageVolume (s : State) : State :=
  match s.level.wellLevel with
  | some v =>
    let r := s.running.volumeAt v
    s.onBalance fun b => { b with volume := some r.1, aboveTable := r.2 }
  | none => s.onBalance fun b => { b with volume := none, aboveTable := false }

/-! Head (R20) -/

/-- The discharge level (R20): the OUTFALL value, VALID or STALE, or the lip if that is larger. -/
def dischargeLevel (s : State) : Nat :=
  let out := s.level.channels.a6
  if out.period = .none then s.running.dischargeLip else max (out.held.getD 0) s.running.dischargeLip

/-- Stage 2 (R20). -/
def stageHead (s : State) : State :=
  match s.level.wellLevel with
  | some v => s.onBalance fun b => { b with
      head := dischargeLevel s - v
      headStale := decide (s.level.channels.a6.period ≠ .valid) }
  | none => s.onBalance fun b => { b with headStale := true }

/-! Pump flow (R21) -/

/-- Segment i of a pump's curve at a head inside it. The flow falls along it, so trunc of the negative quotient takes
away its magnitude rounded down. -/
def Settings.segmentFlow (c : Settings) (p : Ix6) (i head : Nat) : Nat :=
  c.curveFlow p i -
    (head - c.curveHead p i) * (c.curveFlow p i - c.curveFlow p (i + 1)) / (c.curveHead p (i + 1) - c.curveHead p i)

/-- The head-limited mark at a head (R21). -/
def Settings.headLimits (c : Settings) (p : Ix6) (head : Nat) : Bool := c.curveHead p 4 ≤ head

/-- Curve flow at a head (R21). -/
def Settings.flowAt (c : Settings) (p : Ix6) (head : Nat) : Nat :=
  if head < c.curveHead p 0 then c.curveFlow p 0
  else
    match [0, 1, 2, 3].find? (fun i => c.curveHead p i ≤ head && head < c.curveHead p (i + 1)) with
    | some i => c.segmentFlow p i head
    | none => c.curveFlow p 4

/-- Stage 3 (R21, R22). -/
def stageFlow (s : State) : State :=
  { s with pumps := Six.gen fun p =>
      let q := s.pump p
      { q with
        flow := if q.feedback.state then s.running.flowAt p s.balance.head else 0
        headLimited := s.running.headLimits p s.balance.head } }

/-- The sum of the computed flows (R21). -/
def sumFlow (s : State) : Nat := (s.pumps.toList.map fun p => p.flow).sum

/-! Inflow (R23, R24) -/

/-- The inflow estimate from two volumes, the period and the pumps' flows (R23). -/
def inflowOf (vPrev v p sumQ : Nat) : Nat :=
  min max16 ((((v : Int) - (vPrev : Int)).tdiv (p : Int) + (sumQ : Int)).toNat)

/-- Stage 4 (R23, R24), with the P of the period just ended. -/
def stageInflow (p : Nat) (s : State) : State :=
  match s.balance.volume, s.balance.vPrev with
  | some v, some v0 =>
    s.onBalance fun b => { b with vPrev := some v, inflow := inflowOf v0 v p (sumFlow s), inflowStale := false }
  | some v, none => s.onBalance fun b => { b with vPrev := some v, inflowStale := true }
  | none, _ => s.onBalance fun b => { b with vPrev := none, inflowStale := true }

/-! Inflow class (R25 to R27) -/

/-- A rise of class (R25). -/
def riseOf (c : Settings) (inflow : Nat) : InflowClass → Option InflowClass
  | .dry => if c.stormOn ≤ inflow then some .storm else if c.wetOn ≤ inflow then some .wet else none
  | .wet => if c.stormOn ≤ inflow then some .storm else none
  | .storm => none

/-- The leaving threshold of a class, and the class a fall leads to (R26). -/
def fallOf (c : Settings) : InflowClass → Option (Nat × InflowClass)
  | .dry => none
  | .wet => some (c.wetOff, .dry)
  | .storm => some (c.stormOff, .wet)

/-- Class and hold count after a period end whose inflow is current (R25, R26). -/
def classAfter (c : Settings) (p inflow : Nat) (cls : InflowClass) (hold : Nat) : InflowClass × Nat :=
  match riseOf c inflow cls with
  | some up => (up, 0)
  | none =>
    match fallOf c cls with
    | none => (cls, 0)
    | some (off, down) =>
      if inflow ≤ off then
        let h := saturate max16 (hold + p)
        if c.classHold ≤ h then (down, 0) else (cls, h)
      else (cls, 0)

/-- Stage 5 (R25 to R27), with the flag of R35 and but for its edge. -/
def stageClass (p : Nat) (s : State) : State :=
  if s.balance.inflowStale then s
  else
    let r := classAfter s.running p s.balance.inflow s.balance.cls s.balance.hold
    let s1 := s.onBalance fun b => { b with cls := r.1, hold := r.2 }
    if r.1 = s.balance.cls then s1 else setFlag .balance s1

/-- The STORM edge of stage 5, between the balance before it and after it (R27). -/
def stormEdge (before after : Balance) : List Edge :=
  causeEdge .storm 0 (before.cls = .storm) (after.cls = .storm) (bytes2 after.inflow)

/-! Weir flow (R28, R29) -/

/-- The level weir w reads, while it is valid (section 2.7). -/
def weirLevel? (s : State) : Ix2 → Option Nat
  | .i1 => s.level.channels.a1.validValue?
  | .i2 => s.level.wellLevel

/-- One more bit of a square root: the bit is kept if the square still fits. -/
def rootBit (n r b : Nat) : Nat := if (r + b) * (r + b) ≤ n then r + b else r

/-- The largest whole number, of at most ten bits, whose square does not exceed n (R28). -/
def root (n : Nat) : Nat := [512, 256, 128, 64, 32, 16, 8, 4, 2, 1].foldl (rootBit n) 0

/-- The weir head at a level (R28). -/
def weirHead (crest level : Nat) : Nat := min 4095 (level - crest)

/-- The weir flow before saturation (R29). -/
def weirFlow (k h r : Nat) : Nat := k * h * r / 65536

/-- Stage 6 for weir w (R28, R29). -/
def stageWeir (w : Ix2) (s : State) : State :=
  match weirLevel? s w with
  | some v =>
    let h := weirHead (s.running.crest w) v
    let r := root (h * 256)
    let q := weirFlow (s.running.weirK w) h r
    s.onBalance fun b => { b with weirs := b.weirs.modify w fun x => { x with
      head := h, root := r, flow := saturate max16 q, status := if max16 < q then .saturated else .current } }
  | none =>
    s.onBalance fun b => { b with weirs := b.weirs.modify w fun x => { x with flow := 0, status := .notComputed } }

/-! Tally and spill state (R30, R32) -/

/-- The tally's update at a period end (R32). -/
def Tally.update (p : Nat) (x : Weir) (t : Tally) : Tally :=
  if x.status = .notComputed then { t with incomplete := true }
  else if x.flow = 0 then t
  else { t with
    volume := saturate max32 (t.volume + x.flow * p)
    seconds := saturate max32 (t.seconds + p)
    peak := max t.peak x.flow }

/-- The spill state's move at a period end, after the tally's update (R30). -/
def Weir.moveSpill (separation : Nat) (x : Weir) : Weir :=
  if x.status = .notComputed then
    if x.spill = .settling then { x with separation := none } else x
  else
    match x.spill, x.flow with
    | .dry, 0 => x
    | .dry, _ + 1 =>
      { x with spill := .spilling, tally := { x.tally with episodes := saturate max16 (x.tally.episodes + 1) } }
    | .spilling, 0 => { x with spill := .settling, separation := seconds separation }
    | .spilling, _ + 1 => x
    | .settling, 0 => if x.separation.isSome then x else { x with separation := seconds separation }
    | .settling, _ + 1 => { x with spill := .spilling, separation := none }

/-- Stage 7 for one weir (R30, R32). -/
def Weir.stage (p separation : Nat) (x : Weir) : Weir :=
  Weir.moveSpill separation { x with tally := x.tally.update p x }

/-- The SPILLING raise of a weir whose episode opened (R30). -/
def spillEdge (w : Ix2) (before after : Weir) : List Edge :=
  if before.spill = .dry && after.spill = .spilling then [⟨.spilling, w.num, some (bytes2 after.tally.peak)⟩] else []

/-- Whether a weir's stage sets the BALANCE flag (R35). -/
def weirNews (before after : Weir) : Bool :=
  before.spill ≠ after.spill || (!before.tally.incomplete && after.tally.incomplete)

/-- The SPILLING edges of stage 7, between the balance before it and after it (R30). -/
def spillEdges (before after : Balance) : List Edge :=
  (Ix2.all.map fun w => spillEdge w (before.weirs.get w) (after.weirs.get w)).flatten

/-- Stage 7 for both weirs (R30, R32, R35), but for its edges. -/
def stageSpill (p : Nat) (s : State) : State :=
  let before := s.balance.weirs
  let after := before.map (Weir.stage p s.running.separationTime)
  let s1 := s.onBalance fun b => { b with weirs := after }
  if Ix2.all.any fun w => weirNews (before.get w) (after.get w) then setFlag .balance s1 else s1

/-- The station computation at a period end (R18), with the length P of the period just ended, but for its edges
(`stormEdge`, `spillEdges`). A QUIET link wakes when the class leaves DRY (R187). -/
def balancePeriodEnd (p : Nat) (s : State) : State :=
  let s1 := stageClass p (stageInflow p (stageFlow (stageHead (stageVolume s))))
  let s2 := if s.balance.cls = .dry && s1.balance.cls ≠ .dry then wakeLink true s1 else s1
  stageSpill p (stageWeir .i2 (stageWeir .i1 s2))

/-! Events and tallies -/

/-- A weir's separation timer expires (R31, R35). -/
def separationExpires (w : Ix2) (s : State) : State :=
  returnKind .spilling w.num (setFlag .balance (s.onBalance fun b =>
    { b with weirs := b.weirs.modify w fun x => { x with spill := .dry, separation := none } }))

/-- A weir's tally is taken (R33, R35). -/
def clearTally (w : Ix2) (s : State) : State :=
  setFlag .balance (s.onBalance fun b => { b with weirs := b.weirs.modify w fun x => { x with tally := .zero } })

end Sys2Proof.Machine
end

