-- ==== Sys2Proof/Machine/Duty.lean ====
section
/-!
DEFINITION. The Duty Controller's positions, drawdown and called set (chapter 3), and what every event ends with: the
called set formed and acted on, claims shed and granted, TRANSFER-ACK tested (R47, R48, R62, R66, R86, R88, R91).
-/

namespace Sys2Proof.Machine

/-! Positions and N (R44 to R46) -/

/-- The effective stop level of a position (R44). -/
def Settings.effectiveStop (c : Settings) (d : Nat) (k : Ix6) : Nat := max (c.dutyStop k - d) c.pumpOffFloor

/-- The effective start level of a position (R44). -/
def Settings.effectiveStart (c : Settings) (d : Nat) (k : Ix6) : Nat :=
  max (c.dutyStart k - d) (c.effectiveStop d k + 50)

/-- A position's state at a well level (R45). -/
def Settings.position (c : Settings) (d level : Nat) (k : Ix6) (on : Bool) : Bool :=
  if on then !(level ≤ c.effectiveStop d k) else c.effectiveStart d k ≤ level

/-- The count of positions on. -/
def Duty.positionsOn (d : Duty) : Nat := d.positions.toList.countP id

/-- N from the positions and the HIGH-HIGH float in LEVEL mode (R45, R46). -/
def wantedInLevel (s : State) : Nat := if s.level.highHigh.state then 6 else s.duty.positionsOn

/-- N from the floats in FLOAT mode (R46). -/
def wantedInFloat (s : State) : Nat :=
  if s.level.highHigh.state then 6
  else if s.level.high.state then max s.duty.wanted 2
  else if !s.level.low.state then 0
  else s.duty.wanted

def setWanted (n : Nat) (s : State) : State := s.onDuty fun d => { d with wanted := n }

/-- N at a period end (R45, R46), the positions evaluated where the mode is LEVEL. -/
def wantedPeriodEnd (s : State) : State :=
  match s.level.mode with
  | .float => setWanted (wantedInFloat s) s
  | .level =>
    let s1 := s.onDuty fun d => { d with
      positions := Six.gen fun k => s.running.position d.drawdown (s.level.wellLevel.getD 0) k (d.positions.get k) }
    setWanted (wantedInLevel s1) s1

/-- N at a float's debounce expiry (R46). -/
def wantedAtFloat (f : FloatId) (s : State) : State :=
  match s.level.mode with
  | .float => setWanted (wantedInFloat s) s
  | .level => if f = .highHigh then setWanted (wantedInLevel s) s else s

/-! Drawdown (R53, R54) -/

/-- A drawdown is active while its timer runs. -/
def Duty.drawdownActive (d : Duty) : Bool := d.drawdownTimer.isSome

/-- Minutes remaining, rounded up (R53). -/
def Duty.drawdownMinutes (d : Duty) : Nat := remaining d.drawdownTimer 6000

/-- A drawdown begins, or replaces the active one (R53, R54). -/
def beginDrawdown (offset minutes : Nat) (s : State) : State :=
  let s1 := s.onDuty fun d => { d with drawdown := offset, drawdownTimer := seconds (60 * minutes) }
  if s.duty.drawdownActive then s1 else raiseKind .drawdown 0 (bytes2 offset ++ bytes2 minutes) s1

/-- The block with no drawdown active (R54). -/
def Duty.endDrawdown (d : Duty) : Duty :=
  if d.drawdownActive then { d with drawdown := 0, drawdownTimer := none } else d

/-- The return of DRAWDOWN where one is active (R54). -/
def drawdownReturn (d : Duty) : List Edge := causeEdge .drawdown 0 d.drawdownActive false []

/-- A drawdown ends (R54). -/
def endDrawdown (s : State) : State := offerEdges (drawdownReturn s.duty) (s.onDuty Duty.endDrawdown)

/-- What the loss of the link undoes (R52, R54, R188): every town mark and any drawdown. The returns are the caller's. -/
def dropTownControl (s : State) : State := (clearTownMarks s).onDuty Duty.endDrawdown

/-! The called set (R39, R47) -/

/-- Eligibility (R39). -/
def Pump.eligible (q : Pump) : Bool :=
  q.selector = .auto && q.locks.empty && !q.headBlocked &&
    (q.seq = .idle || q.seq = .queued || q.seq = .starting || q.seq = .running)

/-- STARTING or RUNNING. -/
def Pump.onDuty (q : Pump) : Bool := q.seq = .starting || q.seq = .running

/-- The set C of R47, in ladder order. -/
def dutySet (s : State) : List Ix6 := s.duty.ladder.filter fun p => (s.pump p).eligible && (s.pump p).onDuty

/-- The pumps that may be called afresh, in ladder order (R39, R47). -/
def freshSet (s : State) : List Ix6 :=
  s.duty.ladder.filter fun p => (s.pump p).eligible && !(s.pump p).onDuty && !(s.pump p).startsLimited

/-- The called set (R47). -/
def calledSet (s : State) : List Ix6 :=
  (dutySet s).take s.duty.wanted ++ (freshSet s).take (s.duty.wanted - (dutySet s).length)

/-- The called set is formed, and each pump's called field follows it (R48). -/
def formCalled (s : State) : State :=
  { s with pumps := Six.gen fun p => { s.pump p with called := (calledSet s).contains p } }

/-! Acting on the called set (R62, R66) -/

/-- Whether a RUNNING pump's withdrawn call now stops it (R66). -/
def Pump.withdrawn (q : Pump) : Bool := q.seq = .running && !q.called && q.minRun.isNone

/-- A QUEUED pump that is not called goes to IDLE (R62). -/
def unqueuePump (p : Ix6) (s : State) : State :=
  quitQueue (.pump p) (s.onPump p fun q => { q with seq := .idle })

/-- A called IDLE pump joins the claim queue (R62). -/
def queuePump (p : Ix6) (s : State) : State :=
  joinQueue (.pump p) (s.onPump p fun q => { q with seq := .queued })

/-! Shedding (R88, R89) -/

/-- The order in which claims are shed (R88). -/
def shedOrder (s : State) : List Claimant :=
  let rakes : List Ix2 := [.i2, .i1]
  (rakes.filter fun n => !(s.screen n).blocked).map .rake ++ s.duty.ladder.reverse.map .pump ++
  (rakes.filter fun n => (s.screen n).blocked).map .rake

def claimOf (s : State) : Claimant → Option Nat
  | .pump p => (s.pump p).claim
  | .rake n => (s.screen n).claim

/-- A claim is shed (R88, R89). -/
def shed (short : Nat) (c : Claimant) (s : State) : State :=
  let s1 := setFlag .power (markShed c short s)
  match c with
  | .pump p => stopPump .shed p s1
  | .rake n => pauseRake n s1

/-- A claim is shed while free is still negative. -/
def shedNext (short : Nat) (s : State) (c : Claimant) : State :=
  if free s < 0 && (claimOf s c).isSome then shed short c s else s

/-- Claims are shed, one at a time and whole, until free is 0 or more (R88). -/
def shedAll (s : State) : State := (shedOrder s).foldl (shedNext (free s).natAbs) s

/-! The grant (R86, R87) -/

/-- Whether the head of the queue can be granted (R86). -/
def grantable (s : State) : Claimant → Bool
  | .pump p => decide ((s.running.pumpUnits p : Int) ≤ free s) && gateOpen s && s.power.stagger.isNone
  | .rake n => decide ((s.running.rakeUnits n : Int) ≤ free s)

/-- The head leaves the queue with its claim (R86). -/
def grant (c : Claimant) (s : State) : State :=
  let s1 := leaveQueue c s
  match c with
  | .pump p => grantPump p s1
  | .rake n => grantRake n s1

/-! What an event ends with -/

/-- The next thing the called set and the power leave to do, if any: a shed, a CALL-WITHDRAWN stop, a pump that leaves
the queue, one that joins it, a grant, or, where none can be made, the test of a rake that has entered IDLE
(assumption 12). -/
def nextMove (s : State) : Option (State → State) :=
  if free s < 0 && claimSum s ≠ 0 then some shedAll
  else
    match s.duty.ladder.find? (fun p => (s.pump p).withdrawn) with
    | some p => some (stopPump .callWithdrawn p)
    | none =>
      match s.duty.ladder.find? (fun p => (s.pump p).seq = .queued && !(s.pump p).called) with
      | some p => some (unqueuePump p)
      | none =>
        match s.duty.ladder.find? (fun p => (s.pump p).seq = .idle && (s.pump p).called) with
        | some p => some (queuePump p)
        | none =>
          match s.power.queue.head?.filter (grantable s) with
          | some c => some (grant c)
          | none => (Ix2.all.find? fun n => (s.screen n).untested).map testIdle

/-- Form the called set and make the next move, until none is left. The first argument bounds the moves. -/
def settleMoves : Nat → State → State
  | 0, s => formCalled s
  | n + 1, s =>
    let s1 := formCalled s
    match nextMove s1 with
    | some move => settleMoves n (move s1)
    | none => s1

/-- Bound on the moves of one event: each pump and rake makes a few at most. -/
def moveBound : Nat := 64

/-- The shed mark of a pump that rests in IDLE, not queued, is cleared (R89). -/
def clearIdleShed (s : State) : State :=
  Ix6.all.foldl (fun s p => if (s.pump p).seq = .idle then clearShed (.pump p) s else s) s

/-- TRANSFER-ACK is due (R91). -/
def ackDue (s : State) : Bool :=
  s.power.transferring && !s.power.ack && claimSum s = 0 &&
    s.pumps.toList.all fun q => !(q.seq = .stopping && q.stopWindow.isSome)

/-- TRANSFER-ACK is raised where it is due (R91, R93). -/
def testAck (s : State) : State :=
  if ackDue s then setFlag .power (s.onPower fun w => { w with ack := true }) else s

/-- The called set is formed and acted on, and the power shared, as far as they go at this event. -/
def settle (s : State) : State := testAck (clearIdleShed (settleMoves moveBound s))

end Sys2Proof.Machine
end

