-- ==== Sys2Proof/Machine/RakeEvents.lean ====
section
/-!
DEFINITION. What a rake does at a pulse, a limit, an overload and the expiry of each of its timers (R96, R101, R102,
R111 to R113).
-/

namespace Sys2Proof.Machine

/-- Rake state codes (R200), in the order of the table of section 6.3. -/
def RakeState.code : RakeState → Nat
  | .unhomed => 0 | .idle => 1 | .waiting => 2 | .homing => 3 | .descending => 4 | .gripping => 5 | .ascending => 6
  | .discharging => 7 | .reversing => 8 | .positioning => 9 | .held => 10 | .paused => 11 | .locked => 12

def Dir.code : Dir → Nat
  | .down => 0 | .up => 1

/-! Pulses (R111) -/

/-- Position and upward count after one counted pulse upward. -/
def Screen.pulseUp (sc : Screen) : Screen :=
  { sc with position := sc.position - 1, upCount := if sc.leg = .up then sc.upCount + 1 else sc.upCount }

/-- Position and upward count after one counted pulse downward, the position held at its limit. -/
def Screen.pulseDown (limit : Nat) (sc : Screen) : Screen :=
  { sc with
    position := min limit (sc.position + 1), upCount := if sc.leg = .up then sc.upCount - 1 else sc.upCount }

/-- The rake locks for travel, with the leg's direction and the position (R111). -/
def lockTravel (n : Ix2) (s : State) : State :=
  lockRake n .travel (byte (s.screen n).leg.code :: bytes2 (s.screen n).position) s

/-- A counted pulse that leaves the rake unlocked restarts the jam timer, and may bring a POSITION to its target
(R107, R111). The restart uses the jam_time in force (assumption 35), and only a pulse brings a POSITION to its target
(assumption 36). -/
def afterPulse (n : Ix2) (s : State) : State :=
  let s1 := s.onScreen n fun sc => { sc with jamTimer := seconds (s.running.jamTime n) }
  match (s1.screen n).rake, (s1.screen n).op with
  | .positioning, .position p => if (s1.screen n).position = p then finishPosition n s1 else s1
  | _, _ => s1

/-- A pulse event (R96, R111). -/
def takePulse (n : Ix2) (s : State) : State :=
  let sc := s.screen n
  if sc.up then
    let s1 := s.onScreen n Screen.pulseUp
    if sc.legLimit < (s1.screen n).upCount then lockTravel n s1 else afterPulse n s1
  else if sc.down then
    let limit := s.running.travelLimit n
    let s1 := s.onScreen n (Screen.pulseDown limit)
    if limit < sc.position + 1 then lockTravel n s1 else afterPulse n s1
  else s

/-! Inputs (R96) -/

def Screen.input (sc : Screen) : RakeInput → Debounced
  | .home => sc.home | .bottom => sc.bottom | .overload => sc.overload

def Screen.onInput (i : RakeInput) (f : Debounced → Debounced) (sc : Screen) : Screen :=
  match i with
  | .home => { sc with home := f sc.home }
  | .bottom => { sc with bottom := f sc.bottom }
  | .overload => { sc with overload := f sc.overload }

/-- HOME becomes made (R101, R105, R107, R112). -/
def homeMade (n : Ix2) (s : State) : State :=
  match (s.screen n).rake with
  | .homing => finishHoming n s
  | .ascending => enterDischarging n s
  | .positioning =>
    if (s.screen n).up then finishPosition n (s.onScreen n fun sc => { sc with position := 0 }) else s
  | .reversing => limitInReverse n true s
  | _ => s

/-- BOTTOM becomes made (R101, R107, R112). -/
def bottomMade (n : Ix2) (s : State) : State :=
  match (s.screen n).rake with
  | .descending => enterGripping n s
  | .positioning => if (s.screen n).down then finishPosition n s else s
  | .reversing => limitInReverse n false s
  | _ => s

/-- A rake input's debounce timer has expired and the state taken (R96, R113, R114). -/
def rakeInputMoved (n : Ix2) (i : RakeInput) (s : State) : State :=
  let sc := s.screen n
  match i with
  | .home => if sc.home.state then homeMade n s else s
  | .bottom => if sc.bottom.state then bottomMade n s else s
  | .overload =>
    if sc.overload.state then
      if sc.locks.overload then s else lockRake n .overload [byte sc.rake.code] s
    else releaseRake n s

/-! Timers -/

/-- The grip dwell expires (R101). -/
def gripExpires (n : Ix2) (s : State) : State :=
  beginLeg n .ascending .up (s.onScreen n fun sc => { sc with dwell := none })

/-- The discharge dwell expires (R102): the cycle is complete. Cycles done, 0 to 5, stays at 5 where a carried-on cycle
would take it past (DESIGN CHOICE, assumption 39). -/
def dischargeExpires (n : Ix2) (s : State) : State :=
  let s1 := s.onScreen n fun sc =>
    { sc with dwell := none, cycles := saturate 5 (sc.cycles + 1), lastCycleEnd := s.clock.uptime.secs }
  match (s1.screen n).op with
  | .finish 0 => enterHeld n (writeCompletion n 4 .complete (s1.screen n).cycles s1)
  | .finish (k + 1) => beginLeg n .descending .down (s1.onScreen n fun sc => { sc with op := .finish k })
  | _ => enterIdle n (writeCompletion n 1 .complete 1 s1)

/-- The rake locks for a jam, with the position and the retries used (R112). -/
def lockJam (n : Ix2) (s : State) : State :=
  lockRake n .jam (bytes2 (s.screen n).position ++ [byte (s.screen n).retries]) s

/-- The jam timer expires (R112). -/
def jamExpires (n : Ix2) (s : State) : State :=
  let dir := if (s.screen n).up then Dir.up else Dir.down
  let s1 := s.onScreen n fun sc => { sc.drive none with jamTimer := none }
  if (s.screen n).rake = .reversing then lockJam n s1
  else
    let s2 := s1.onScreen n fun sc => { sc with retries := sc.retries + 1 }
    if s.running.jamRetries n < (s2.screen n).retries then lockJam n s2
    else enterReversing n (s2.onScreen n fun sc => { sc with interrupted := dir })

end Sys2Proof.Machine
end

