-- ==== Sys2Proof/Machine/Images.lean ====
section
/-!
DEFINITION. The byte images of chapter 12: records, entries, the completion record and the station summary.
-/

namespace Sys2Proof.Machine

/-! Condition record (section 12.3) -/

/-- Image of the record in a slot. -/
def recordImage (slot gen : Nat) (r : Record) : List Byte :=
  [byte (20 + r.extra.length), byte slot, byte gen, byte r.key.kind.cls.code, byte r.key.number, byte r.key.kind.code,
   byte (16 * r.severity.code + r.state.code)] ++
  bytes2 (remaining r.shelf 6000 + 512 * bit r.key.kind.latched + 1024 * bit r.shelved + 2048 * r.ackBy.code) ++
  [byte r.raiseCount] ++ stampBytes r.firstRaised ++ stampBytes r.lastChange ++ r.extra

/-- Image of a slot's record; nothing for a vacant slot. -/
def Table.image (t : Table) (i : Nat) : List Byte :=
  match (t.slot i).record with
  | some r => recordImage i (t.slot i).gen r
  | none => []

/-! Pump (section 12.3) -/

def Selector.code : Selector → Nat
  | .off => 0 | .hand => 1 | .auto => 2

/-- Age of the oldest start in seconds (R57, assumption 16). No rule gives what is sent for an empty history: the model
sends 0 (assumption 17). -/
def oldestAge (now : Stamp) : List Stamp → Nat
  | [] => 0
  | t :: _ =>
    let age := ticksSince now t
    if age % 100 ≠ 0 && Config.ageRoundUp age then age / 100 + 1 else age / 100

/-- A pump's place in the ladder, 1 at the front (R57). -/
def ladderPlace (p : Ix6) (l : List Ix6) : Nat := l.findIdx (· = p) + 1

def pumpImage (p : Ix6) (s : State) : List Byte :=
  let q := s.pump p
  [byte p.num, byte q.selector.code, byte q.seq.code, byte q.locks.code, byte (s.running.pumpUnits p),
   byte (bits [q.headLimited, q.headBlocked, q.startsLimited, q.called]), byte q.history.length] ++
  bytes2 (oldestAge s.clock.uptime q.history) ++ [byte (ladderPlace p s.duty.ladder)] ++
  bytes4 q.runSeconds ++ bytes4 q.starts ++ bytes2 q.flow

/-! Tally (section 12.3) -/

def tallyImage (t : Tally) : List Byte :=
  bytes4 t.volume ++ bytes4 t.seconds ++ bytes2 t.episodes ++ bytes2 t.peak ++ [byte (bit t.incomplete)]

/-! Screen and completion record (section 12.3) -/

def RakeOutcome.code : RakeOutcome → Nat
  | .complete => 0 | .jammed => 1 | .overload => 2 | .travel => 3 | .superseded => 4

/-- The completion record after its first byte. -/
def Completion.tail (c : Completion) : List Byte :=
  [byte c.operation, byte c.outcome.code] ++ bytes2 c.position ++ [byte c.cycles] ++ stampBytes c.time

/-- A completion record as SENSE SCREEN gives it. -/
def Completion.image (c : Completion) : List Byte := byte (bit c.overwritten) :: c.tail

/-- The completion record in the screen image: bit 1 of the first byte is set while a record is present. -/
def completionShown : Option Completion → List Byte
  | some c => byte (bits [c.overwritten, true]) :: c.tail
  | none => List.replicate 11 0

/-- A remaining time in tenths of a second (R117, assumption 16). -/
def tenths (t : Timer) : Nat :=
  let n := t.getD 0
  if n % 10 ≠ 0 && Config.tenthsRoundUp n then n / 10 + 1 else n / 10

/-- Operation in hand, its remaining count and its target (section 12.3). -/
def Operation.image : Operation → List Byte
  | .none => [0, 0, 0, 0]
  | .cycle => [1, 0, 0, 0]
  | .home automatic => [if automatic then 5 else 2, 0, 0, 0]
  | .position p => [3, 0] ++ bytes2 p
  | .finish k => [4, byte k, 0, 0]

/-- Lockout set and acknowledged marks of a rake. -/
def Screen.locksCode (sc : Screen) : Nat :=
  bits [sc.locks.jam, sc.locks.overload, sc.locks.travel, false, sc.acks.jam, sc.acks.overload, sc.acks.travel]

def screenImage (n : Ix2) (s : State) : List Byte :=
  let sc := s.screen n
  [byte n.num, byte sc.rake.code, byte (bits [sc.blocked, sc.homed, sc.pending, sc.diffStale])] ++
  bytes2 sc.differential ++ bytes2 sc.position ++ sc.op.image ++
  [byte ((sc.saved.map RakeState.code).getD 255), byte (bits [sc.leg = .up, sc.interrupted = .up])] ++
  bytes2 sc.upCount ++ [byte sc.retries, byte sc.cycles, byte sc.locksCode] ++ bytes4 sc.lastCycleEnd ++
  bytes2 (tenths sc.jamTimer) ++ bytes2 (tenths sc.dwell) ++ bytes2 (tenths sc.reverse) ++ completionShown sc.completion

/-! Channels (section 12.3) -/

def SampleStatus.code : SampleStatus → Nat
  | .valid => 0 | .under => 1 | .broken => 2 | .over => 3 | .discarded => 4 | .none => 5

def PeriodStatus.code : PeriodStatus → Nat
  | .valid => 0 | .stale => 1 | .none => 2

def channelImage (c : Channel) : List Byte :=
  bytes2 c.raw ++ [byte c.sample.code, byte c.period.code] ++
  bytes2 (if c.period = .none then 0 else c.held.getD 0) ++ [byte c.invalid, byte c.valid]

/-- What READ CHANNELS returns after its outcome (R16). -/
def channelsImage (l : Level) : List Byte :=
  (l.channels.toList.map channelImage).flatten ++ bytes2 l.refRaw ++ [byte l.refSample.code] ++
  [byte l.discarded, byte l.good, byte l.rounds]

/-! Station summary (section 12.3) -/

def FlowStatus.code : FlowStatus → Nat
  | .current => 0 | .saturated => 1 | .notComputed => 2

def SpillState.code : SpillState → Nat
  | .dry => 0 | .spilling => 1 | .settling => 2

def InflowClass.code : InflowClass → Nat
  | .dry => 0 | .wet => 1 | .storm => 2

def Source.code : Source → Nat
  | .mains => 0 | .generator => 1 | .none => 2

def Aspect.code : Aspect → Nat
  | .off => 0 | .steady => 1 | .flash => 2

def LinkState.code : LinkState → Nat
  | .offline => 0 | .joining => 1 | .online => 2 | .quiet => 3 | .lost => 4

def Claimant.code : Claimant → Nat
  | .pump p => p.num
  | .rake n => 0x10 + n.num

/-- Bytes 0 to 10: times and flags. -/
def summaryTime (s : State) : List Byte :=
  stampBytes s.clock.uptime ++ stampBytes s.clock.station ++
  [byte (bits [s.clock.set, s.level.mode = .float, s.shown.low, s.shown.high, s.shown.highHigh,
    s.balance.volume.isNone, s.balance.aboveTable, s.balance.headStale])]

/-- One weir: flow, flow status, and the spill state of the last period end (R34). -/
def weirImage (w : Weir) (spill : SpillState) : List Byte := bytes2 w.flow ++ [byte w.status.code, byte spill.code]

/-- Bytes 11 to 31: levels and the balance. -/
def summaryBalance (s : State) : List Byte :=
  bytes2 s.level.levelWord ++ bytes4 (s.balance.volume.getD 0) ++
  bytes2 s.balance.head ++ bytes2 (sumFlow s) ++ bytes2 s.balance.inflow ++
  [byte (s.balance.cls.code + 128 * bit s.balance.inflowStale)] ++
  weirImage s.balance.weirs.a1 s.shown.spills.a1 ++ weirImage s.balance.weirs.a2 s.shown.spills.a2

/-- Bytes 32 to 43: the duty as of the last period end (R57, R172). -/
def summaryDuty (d : Shown) : List Byte :=
  [byte d.wanted] ++ d.ladder.map (fun p => byte p.num) ++
  [byte (bits (d.called.toList ++ [d.rotationFixed, d.drawdownActive]))] ++
  bytes2 d.drawdown ++ bytes2 d.drawdownMinutes

/-- The claim queue, head first, in eight places. -/
def queueImage (q : List Claimant) : List Byte :=
  (q.map fun c => byte c.code) ++ List.replicate (8 - q.length) 0

/-- Bytes 44 to 68: the power. -/
def summaryPower (s : State) : List Byte :=
  [byte s.power.source.code,
   byte (bits [s.power.transferring, s.power.ack, gateOpen s, s.ann.horn, s.ann.silence, s.ann.beacon, s.ann.relay]),
   byte (budget s), byte (externalLoad s), byte (available s), byte (claimSum s), byte (free s).toNat] ++
  s.pumps.toList.map (fun p => byte (p.claim.getD 0)) ++ s.screens.toList.map (fun n => byte (n.claim.getD 0)) ++
  queueImage s.power.queue ++ [byte (remaining s.power.stagger 100)] ++
  [byte (bits (s.pumps.toList.map Pump.shedMark ++ s.screens.toList.map Screen.shedMark))]

/-- Two bits for each of four lamps from lamp i + 1 on, the first in the low bits. -/
def lampByte (l : List Aspect) (i : Nat) : Byte :=
  let a := fun j => (l.getD (i + j) .off).code
  byte (a 0 + 4 * a 1 + 16 * a 2 + 64 * a 3)

/-- Bytes 69 to 91: the screens, the lamps, the header, the link and the flags. -/
def summaryRest (s : State) : List Byte :=
  (s.screens.toList.map fun sc => byte sc.rake.code :: bytes2 sc.differential).flatten ++
  [byte (bits [s.screens.a1.blocked, s.screens.a1.diffStale, s.screens.a2.blocked, s.screens.a2.diffStale])] ++
  [0, 4, 8, 12].map (lampByte s.ann.lamps) ++ [byte s.table.seatedCount] ++ bytes4 s.table.raisedSinceClear ++
  stampBytes s.table.lastClear ++ [byte s.link.state.code, byte s.port.flags.code]

/-- The station summary, 92 bytes (R172). -/
def summaryImage (s : State) : List Byte :=
  summaryTime s ++ summaryBalance s ++ summaryDuty s.shown ++ summaryPower s ++ summaryRest s

end Sys2Proof.Machine
end

