-- ==== Sys2Proof/Machine/Link.lean ====
section
/-!
DEFINITION. The Town Link's line and states: the check, the frames, the transmitter, and the entries to JOINING, ONLINE,
QUIET, LOST and OFFLINE (sections 10.1 to 10.4, 10.6 to 10.9).
-/

namespace Sys2Proof.Machine

/-! The check and the frame (R201, section 10.1) -/

/-- One shift of the check register (R201). -/
def crcShift (c : BitVec 16) : BitVec 16 := if c.getLsbD 15 then (c <<< 1) ^^^ 0x1021 else c <<< 1

/-- One byte taken into the check register (R201). -/
def crcByte (c : BitVec 16) (b : Byte) : BitVec 16 :=
  crcShift (crcShift (crcShift (crcShift (crcShift (crcShift (crcShift (crcShift (c ^^^ (b.setWidth 16 <<< 8)))))))))

/-- The check over some bytes, in the order of the line (R201). -/
def crc (bs : List Byte) : BitVec 16 := bs.foldl crcByte 0xFFFF

/-- The bytes a frame's check covers: length, kind, tag and payload. -/
def Frame.body (f : Frame) : List Byte := byte f.payload.length :: f.kind :: f.tag :: f.payload

/-- A frame's bytes on the line, from its start byte to its check, high byte first (section 10.1, R201). -/
def Frame.bytes (f : Frame) : List Byte := 0xA5 :: (f.body ++ bytes2 (crc f.body).toNat)

/-! What is owed (R175, R182) -/

/-- Something a notice is owed for: its change order, its slot, and whether it is a record. -/
structure Owing where
  order : Nat
  slot : Nat
  isRecord : Bool
  deriving DecidableEq, Repr

/-- What a slot owes: a record that is not town-current, or a gone-owed mark. -/
def Slot.owing (i : Nat) (sl : Slot) : List Owing :=
  (match sl.record with
    | some r => if r.townCurrent then [] else [⟨r.changeOrder, i, true⟩]
    | none => []) ++
  (match sl.goneOwed with
    | some o => [⟨o, i, false⟩]
    | none => [])

/-- Everything owed a notice. -/
def Table.owing (t : Table) : List Owing := ((List.range 48).map fun i => (t.slot i).owing i).flatten

/-- Of what is owed, the one with the smallest change order (R182). -/
def earliest : List Owing → Option Owing
  | [] => none
  | o :: os =>
    match earliest os with
    | none => some o
    | some m => if m.order < o.order then some m else some o

/-- A request's response is not yet on the line. -/
def Request.waits (r : Request) : Bool := !r.onLine

/-- The next response on the line is the earliest-arrived one that waits. -/
def markOnLine : List Request → List Request
  | [] => []
  | r :: rs => if r.waits then { r with onLine := true } :: rs else r :: markOnLine rs

/-! The transmitter (R175) -/

def sendFrame (f : Frame) (s : State) : State := s.onLink fun l => { l with sending := some f }

/-- A JOIN-OFFER (R177), with the station_id and the uptime of the event at which the transmitter takes it (DEDUCED,
assumption 38). -/
def offerFrame (s : State) : Frame :=
  ⟨0x01, 0, bytes2 s.running.stationId ++ bytes4 s.clock.uptime.secs ++ [48, 4]⟩

/-- Take a notice (R182). -/
def sendNoticeFrame (o : Owing) (s : State) : State :=
  let i := o.slot
  let sl := s.table.slot i
  let s1 := s.onLink fun l => { l with credits := l.credits - 1 }
  if o.isRecord then
    sendFrame ⟨0x06, 0, s.table.image i⟩ (s1.onTable fun t => { t with
      slots := t.slots.set i { sl with record := sl.record.map fun r => { r with townCurrent := true } } })
  else
    sendFrame ⟨0x07, 0, [byte i, byte sl.gen]⟩ (s1.onTable fun t => { t with
      slots := t.slots.set i { sl with goneOwed := none } })

/-- The transmitter's choice in ONLINE and QUIET (R175, R182). -/
def chooseJoined (s : State) : State :=
  let l := s.link
  if l.wakesOwed ≠ 0 then sendFrame ⟨0x04, 0, []⟩ (s.onLink fun l => { l with wakesOwed := l.wakesOwed - 1 })
  else
    match l.requests.find? Request.waits with
    | some r => sendFrame ⟨0x08, r.tag, r.response⟩ (s.onLink fun l => { l with requests := markOnLine l.requests })
    | none =>
      if l.statusOwed then
        sendFrame ⟨0x05, 0, summaryImage s⟩ (s.onLink fun l => { l with statusOwed := false })
      else if l.state = .online && l.credits ≠ 0 then
        match earliest s.table.owing with
        | some o => sendNoticeFrame o s
        | none => s
      else s

/-- A free transmitter takes the first owed frame (R175). A JOIN-OFFER's contents are formed here (assumption 38). -/
def transmit (s : State) : State :=
  if s.link.sending.isSome then s
  else
    match s.link.state with
    | .joining =>
      if s.link.offersOwed ≠ 0 then
        sendFrame (offerFrame s) (s.onLink fun l => { l with offersOwed := l.offersOwed - 1 })
      else s
    | .online | .quiet => chooseJoined s
    | .offline | .lost => s

/-! Protocol faults (R189) -/

/-- A protocol fault: a raise whatever the cause, the acknowledged mark cleared where the cause was absent. -/
def protocolFault (reason : Nat) (concerned : Byte) (s : State) : State :=
  raiseKind .linkProtocol 0 [byte reason, concerned] (s.onLink fun l => { l with
    protocolCause := true
    protocolAck := l.protocolAck && l.protocolCause })

/-! Entries to the states (R176 to R178, R186, R188) -/

/-- Entry to JOINING (R177), at the rate now set (R191). The attention flag is the caller's (R176, R192). A frame in assembly
at an entry from LOST is kept, though the rate may change (DESIGN CHOICE, assumption 40). -/
def enterJoining (s : State) : State :=
  s.onLink fun l => { l with
    state := .joining
    baud := s.running.linkBaud
    credits := 0
    grant := none
    requests := []
    heartbeatTimer := none
    statusTimer := none
    lossTimer := none
    offersOwed := l.offersOwed + 1
    offerTimer := seconds 5 }

/-- The return of LINK-LOST, where its cause is present. -/
def lostReturn (l : Link) : List Edge := causeEdge .linkLost 0 l.lostCause false []

/-- Entry to LOST (R188), but for the returns of the town's inhibits and of a drawdown (`townReturns`, `drawdownReturn`). -/
def enterLost (s : State) : State :=
  dropTownControl (setFlag .link (s.onLink fun l => { l with
    state := .lost
    credits := 0
    grant := none
    period := none
    requests := []
    statusOwed := false
    wakesOwed := 0
    heartbeatTimer := none
    statusTimer := none
    lossTimer := seconds 10 }))

/-- Entry to OFFLINE (R188), but for the return of LINK-LOST. A frame in assembly stays as it is, unread, and its
inter-byte timer runs on (DESIGN CHOICE, assumption 40). -/
def enterOffline (s : State) : State :=
  setFlag .link (s.onLink fun l => { l with
    state := .offline
    credits := 0
    grant := none
    period := none
    requests := []
    offersOwed := 0
    wakesOwed := 0
    statusOwed := false
    lossTimer := none
    offerTimer := none
    heartbeatTimer := none
    statusTimer := none
    lostCause := false })

/-- The link is ONLINE or QUIET. -/
def Link.joined (l : Link) : Bool := l.state = .online || l.state = .quiet

/-- What a commit does to the link (R176, R191), but for its edges. -/
def commitLink (s : State) : State :=
  if s.running.linkEnable then
    match s.link.state with
    | .offline => setFlag .link (enterJoining s)
    | .joining =>
      if s.link.baud = s.running.linkBaud then s
      else s.onLink fun l => { l with baud := s.running.linkBaud, assembly := none, interByte := none }
    | _ => s
  else if s.link.state = .offline then s
  else enterOffline (if s.link.joined then enterLost s else s)

/-- The edges of a commit that disables the link (R188): what the pass through LOST returns, and LINK-LOST. -/
def commitLinkEdges (s : State) : List Edge :=
  if s.running.linkEnable || s.link.state = .offline then []
  else (if s.link.joined then townReturns s ++ drawdownReturn s.duty else []) ++ lostReturn s.link

/-- The heartbeat timer expires (R180). No rule orders the returns of the entry to LOST and the raise of LINK-LOST
(assumption 14). -/
def heartbeatExpires (s : State) : State :=
  offerEdges (townReturns s ++ drawdownReturn s.duty ++
      [⟨.linkLost, 0, some [byte s.link.state.code, byte (s.link.period.getD 0)]⟩])
    ((enterLost s).onLink fun l => { l with lostCause := true })

/-- The status timer expires (R180). -/
def statusExpires (s : State) : State :=
  let p := s.link.period.getD 0
  s.onLink fun l => { l with
    statusOwed := true
    statusTimer := seconds (if l.state = .quiet then 6 * p else p) }

/-! Frames from the town that are not requests (R178, R179, R187) -/

/-- A valid JOIN-ACCEPT's values, or none (R178). -/
def acceptOf? (payload : List Byte) : Option (Stamp × Nat × Nat) :=
  let ticks := byteAt payload 4
  let grant := byteAt payload 5
  let period := byteAt payload 6
  if payload.length = 7 && ticks ≤ 99 && 1 ≤ grant && grant ≤ 8 && 10 ≤ period && period ≤ 60 then
    some (⟨wordAt payload 0 4, ticks⟩, grant, period)
  else none

/-- The station clock takes a value, and its flag is set (R197). -/
def setStation (t : Stamp) (s : State) : State := s.onClock fun c => { c with station := t, set := true }

/-- A valid JOIN-ACCEPT takes the link to ONLINE (R178). -/
def join (town : Stamp) (grant period : Nat) (s : State) : State :=
  let s1 := setFlag .link (s.onLink fun l => { l with
    state := .online, offerTimer := none, offersOwed := 0, grant := some grant, period := some period, credits := grant })
  let s2 := clearNoticeMarks (if s.running.acceptTownTime then setStation town s1 else s1)
  let s3 := if s2.link.protocolCause then releaseProtocol s2 else s2
  let s4 :=
    if s3.link.lostCause then returnKind .linkLost 0 (s3.onLink fun l => { l with lostCause := false }) else s3
  s4.onLink fun l => { l with
    heartbeatTimer := seconds (3 * period), statusOwed := true, statusTimer := seconds period }

/-- A JOIN-ACCEPT that arrives in JOINING (R178). -/
def takeAccept (payload : List Byte) (s : State) : State :=
  match acceptOf? payload with
  | some (town, grant, period) => join town grant period s
  | none => protocolFault 4 0x02 s

/-- A HEARTBEAT that arrives in ONLINE or QUIET (R179). -/
def takeHeartbeat (payload : List Byte) (s : State) : State :=
  match payload with
  | [back] =>
    let grant := s.link.grant.getD 0
    let sum := s.link.credits + back.toNat
    let s1 := s.onLink fun l => { l with credits := min grant sum }
    let s2 := if grant < sum then protocolFault 1 0x03 s1 else s1
    let p := s.link.period.getD 0
    s2.onLink fun l => { l with heartbeatTimer := seconds (if l.state = .quiet then 18 * p else 3 * p) }
  | _ => protocolFault 4 0x03 s

/-! QUIET (R186) -/

/-- Reasons of REFUSED (R200). -/
inductive Refusing
  | floatMode | notDry | alarmUndone | drawdownActive | noticesOwed
  deriving DecidableEq, Repr

def Refusing.code : Refusing → Nat
  | .floatMode => 1 | .notDry => 2 | .alarmUndone => 3 | .drawdownActive => 4 | .noticesOwed => 5

/-- The first test of QUIET-ASK that fails, or none (R186). -/
def quietFails (s : State) : Option Refusing :=
  if s.balance.cls ≠ .dry then some .notDry
  else if s.table.records.any fun r => r.severity.atLeast .major && r.unseen then some .alarmUndone
  else if s.duty.drawdownActive then some .drawdownActive
  else if s.table.owing ≠ [] then some .noticesOwed
  else none

/-- Entry to QUIET (R186). -/
def enterQuiet (s : State) : State :=
  let p := s.link.period.getD 0
  setFlag .link (s.onLink fun l => { l with
    state := .quiet, heartbeatTimer := seconds (18 * p), statusTimer := seconds (6 * p) })

/-! The end of an event -/

/-- What every event ends with once the plant is settled: the saturation test, the local outputs, and a free
transmitter's choice (R132, R146 to R151, R175). -/
def finish (s : State) : State := transmit (annunciate (testSaturation s))

/-- What every event that may move the plant ends with. -/
def conclude (s : State) : State := finish (settle s)

end Sys2Proof.Machine
end

