-- ==== Sys2Proof/Machine/Requests.lean ====
section
/-!
DEFINITION. The central station's requests, the arrival of a frame, and the receiver (sections 10.1, 10.5; R33, R52, R53,
R174, R183 to R187).
-/

namespace Sys2Proof.Machine

/-! The answer of a request -/

/-- An outcome with the result bytes that follow it. -/
structure Reply where
  code : ReplyCode
  bytes : List Byte
  deriving DecidableEq, Repr

/-- An outcome that stands alone. -/
def Reply.of (c : ReplyCode) : Reply := ⟨c, []⟩

/-! Record requests (R184, R142) -/

/-- LOOK-UP by handle. -/
def lookHandle (slot gen : Nat) (s : State) : Reply :=
  match s.table.resolve slot gen with
  | .ok i => ⟨.done, s.table.image i⟩
  | .error o => .of o

/-- LOOK-UP by key, and FIND CONDITION (R142). -/
def lookKey (cls number kind : Nat) (s : State) : Reply :=
  match key? cls number kind with
  | none => .of .outOfRange
  | some k =>
    match s.table.seatedAt? k with
    | some i => ⟨.done, s.table.image i⟩
    | none => ⟨.notFound, [byte ((s.table.waitsAt? k).map (· + 1) |>.getD 0)]⟩

/-- The seated slots from a slot upward. -/
def Table.seatedFrom (t : Table) (start : Nat) : List Nat :=
  (List.range 48).filter fun i => start ≤ i && (t.slot i).record.isSome

/-- PAGE. -/
def page (start count : Nat) (s : State) : Reply :=
  if start ≤ 47 && 1 ≤ count && count ≤ 4 then
    let slots := s.table.seatedFrom start
    ⟨.done, byte ((slots.drop count).headD 255) :: ((slots.take count).map s.table.image).flatten⟩
  else .of .outOfRange

/-! Station requests (R33, R52, R53, R185, R186) -/

/-- TAKE-TALLY (R33). -/
def takeTally (weir : Nat) (s : State) : Reply × State :=
  match two? weir with
  | some w => (⟨.done, tallyImage (s.balance.weirs.get w).tally⟩, clearTally w s)
  | none => (.of .outOfRange, s)

/-- INHIBIT (R52). -/
def takeInhibit (pump on : Nat) (s : State) : Reply × State :=
  match six? pump with
  | some p =>
    if on = 1 then (.of .done, if (s.pump p).townMark then s else setInhibit p .town s)
    else if on = 0 then (.of .done, if (s.pump p).townMark then clearInhibit p .town s else s)
    else (.of .outOfRange, s)
  | none => (.of .outOfRange, s)

/-- DRAWDOWN (R53). -/
def takeDrawdown (offset minutes : Nat) (s : State) : Reply × State :=
  if s.level.mode = .float then (⟨.refused, [byte Refusing.floatMode.code]⟩, s)
  else if minutes = 0 || offset = 0 then (⟨.done, bytes2 0 ++ bytes2 0⟩, endDrawdown s)
  else
    let d := min offset 2000
    let m := min minutes 720
    (⟨.done, bytes2 d ++ bytes2 m⟩, beginDrawdown d m s)

/-- QUIET-ASK (R186). -/
def takeQuietAsk (s : State) : Reply × State :=
  match quietFails s with
  | some r => (⟨.refused, [byte r.code]⟩, s)
  | none => (.of .done, enterQuiet s)

/-! Requests (R183) -/

/-- The outcome of a command that carries no result. -/
def bare (r : ReplyCode × State) : Reply × State := (.of r.1, r.2)

/-- An admitted request of a kind that names one, with a payload of the length its kind requires. -/
def runRequest (kind : Nat) (p : List Byte) (s : State) : Reply × State :=
  match kind with
  | 0x10 => (lookHandle (byteAt p 0) (byteAt p 1) s, s)
  | 0x11 => (lookKey (byteAt p 0) (byteAt p 1) (byteAt p 2) s, s)
  | 0x12 => (page (byteAt p 0) (byteAt p 1) s, s)
  | 0x13 => bare (takeAcknowledge (byteAt p 0) (byteAt p 1) .town s)
  | 0x14 => bare (takeRetire (byteAt p 0) (byteAt p 1) s)
  | 0x15 => (⟨.done, summaryImage s⟩, s)
  | 0x16 => takeTally (byteAt p 0) s
  | 0x17 => takeInhibit (byteAt p 0) (byteAt p 1) s
  | 0x18 => takeDrawdown (wordAt p 0 2) (wordAt p 2 2) s
  | _ => takeQuietAsk s

/-- An admitted request is checked and executed (R183). -/
def answerRequest (kind : Byte) (p : List Byte) (s : State) : Reply × State :=
  if !namesRequest kind.toNat then (.of .invalidCommand, s)
  else if p.length ≠ requestLength kind.toNat then (.of .outOfRange, s)
  else runRequest kind.toNat p s

/-- The response of an admitted request is owed. -/
def respond (kind tag : Byte) (r : Reply × State) : State :=
  r.2.onLink fun l => { l with
    requests := l.requests ++ [⟨tag, kind :: byte r.1.code.code :: r.1.bytes, false⟩] }

/-- A request's admission (R183). Where all four slots are in use and the tag is that of one of them, the rule does not say
which of its two reasons stands: the slots are tested first (DESIGN CHOICE, assumption 45). -/
def takeAdmitted (kind tag : Byte) (p : List Byte) (s : State) : State :=
  if 4 ≤ s.link.requests.length then protocolFault 2 tag s
  else if s.link.requests.any fun r => r.tag = tag then protocolFault 3 tag s
  else respond kind tag (answerRequest kind p s)

/-- A frame taken as a request wakes a QUIET link first (R183, R187). -/
def takeRequest (kind tag : Byte) (p : List Byte) (s : State) : State := takeAdmitted kind tag p (wakeLink false s)

/-! Arrival of a frame -/

/-- A frame arrives in ONLINE or QUIET. -/
def joinedArrival (kind tag : Byte) (p : List Byte) (s : State) : State :=
  match kind.toNat with
  | 2 => s
  | 3 => takeHeartbeat p s
  | 4 => if p = [] then wakeLink false s else s
  | _ => takeRequest kind tag p s

/-- What a frame does on its arrival, by the link's state (R177 to R179, R183, R187). -/
def takeFrame (kind tag : Byte) (p : List Byte) (s : State) : State :=
  match s.link.state with
  | .joining => if kind.toNat = 2 then takeAccept p s else s
  | .online | .quiet => joinedArrival kind tag p s
  | .offline | .lost => s

/-- The receiver hunts, with no frame in assembly. -/
def hunt (s : State) : State := s.onLink fun l => { l with assembly := none, interByte := none }

/-- A frame's arrival event (R174): the receiver hunts again, and the frame is taken. In OFFLINE no frame arrives. -/
def arrive (kind tag : Byte) (p : List Byte) (s : State) : State :=
  if s.link.state = .offline then s else conclude (takeFrame kind tag p (hunt s))

/-! The receiver (R174) -/

/-- A frame discarded for its length or its check is counted (R174). -/
def badFrame (s : State) : State :=
  (hunt s).onLink fun l => { l with badFrames := saturate max16 (l.badFrames + 1) }

/-- The bytes of a frame after its start byte, taken apart: kind, tag and payload where its check agrees. -/
def checked? (bs : List Byte) : Option (Byte × Byte × List Byte) :=
  match bs with
  | len :: kind :: tag :: rest =>
    let p := rest.take len.toNat
    if rest.drop len.toNat = bytes2 (crc (len :: kind :: tag :: p)).toNat then some (kind, tag, p) else none
  | _ => none

/-- The frame in assembly goes on, with its inter-byte timer afresh. -/
def keepBytes (bs : List Byte) (s : State) : State :=
  s.onLink fun l => { l with assembly := some bs, interByte := some 5 }

/-- A byte taken into the frame in assembly. -/
def takeByte (bs : List Byte) (s : State) : State :=
  match bs with
  | [] => s
  | len :: _ =>
    if 128 < len.toNat then badFrame s
    else if bs.length = len.toNat + 5 then
      match checked? bs with
      | some (kind, tag, p) => arrive kind tag p s
      | none => badFrame s
    else keepBytes bs s

/-- A byte arrives on the line (R174). -/
def receiveByte (b : Byte) (s : State) : State :=
  if s.link.state = .offline then s
  else
    match s.link.assembly with
    | none => if b = 0xA5 then keepBytes [] s else s
    | some bs => takeByte (bs ++ [b]) s

end Sys2Proof.Machine
end

