-- ==== Sys2Proof/Machine/Store.lean ====
section
/-!
DEFINITION. The Settings Store's commit and store write (R15, R36, R58, R79, R94, R118, R137, R152, R191, R194 to R196).
-/

namespace Sys2Proof.Machine

/-! What a commit does to the blocks (R195) -/

/-- Whether a point of the stage-storage table differs between two sets (R36). -/
def tableMoved (a b : Settings) : Bool :=
  (List.range 8).any fun i => a.tableLevel i ≠ b.tableLevel i || a.tableVolume i ≠ b.tableVolume i

/-- A rake's position above its new limit is set to that limit (R118). A POSITION in hand does not end by it, even on its
target (DEDUCED, assumption 36). -/
def clampPosition (n : Ix2) (s : State) : State :=
  s.onScreen n fun sc => { sc with position := min sc.position (s.running.travelLimit n) }

/-- The changes of records that a commit makes: edges, and the unshelvings of R137. No rule orders them, so they are made
in slot order, and on one slot the edge goes before the unshelving (R123, assumption 14). -/
def commitChanges (es : List Edge) (s : State) : State :=
  makeChanges [] (es.map .edge ++ ((List.range 48).filter (forbiddenAt s)).map .unshelve) s

/-- The staging set is applied (R195): the running set becomes it, and each block takes up its values. Level
Acquisition, the Sequencer, the Allocator and the Annunciator take theirs up where they next read the running set (R15,
R79, R94, R152). The store write is begun (R196). -/
def applyCommit (s : State) : State :=
  let moved := tableMoved s.store.running s.store.staging
  let s1 := s.onStore fun st => { st with running := st.staging, writing := some 25 }
  let s2 := if moved then s1.onBalance fun b => { b with vPrev := none } else s1
  let s3 := clampPosition .i2 (clampPosition .i1 (trimAllHistories s2))
  setFlag .settings (commitChanges (trimEdges s1 ++ commitLinkEdges s1) (commitLink s3))

/-! The end of a store write (R196) -/

/-- How a store write ends. -/
inductive WriteEnd
  | complete | failed | timedOut
  deriving DecidableEq, Repr

/-- The port's answer to the commit it waits for, if it still waits. -/
def answerCommit (code : ReplyCode) (s : State) : State :=
  if s.port.phase = .executing then s.onPort fun p => { p with phase := .result [byte code.code] } else s

/-- The store write is in hand no more, and the SETTINGS flag is set (R196). -/
def stopWrite (s : State) : State := setFlag .settings (s.onStore fun st => { st with writing := none })

/-- STORE-WRITE-FAIL is raised, whether or not it was present (R196). -/
def raiseWriteFail (extra : Byte) (s : State) : State :=
  raiseKind .storeWriteFail 0 [extra] (s.onStore fun st => { st with writeFail := true })

/-- The returns of a write's good end (R196), which no rule orders. -/
def goodWriteReturns (st : Store) : List Edge :=
  causeEdge .storeWriteFail 0 st.writeFail false [] ++ causeEdge .settingsFault 0 st.settingsFault false []

/-- The end of the store write in hand (R196). -/
def endWrite (e : WriteEnd) (s : State) : State :=
  match e with
  | .complete =>
    answerCommit .done (offerEdges (goodWriteReturns s.store) ((stopWrite s).onStore fun st =>
      { st with image := st.running, checksumGood := true, settingsFault := false, writeFail := false }))
  | .failed => answerCommit .storeFail (raiseWriteFail 0 (stopWrite s))
  | .timedOut => answerCommit .storeFail (raiseWriteFail 1 (stopWrite s))

end Sys2Proof.Machine
end

