-- ==== Sys2Proof/Machine/PanelPort.lean ====
section
/-!
DEFINITION. The Panel Port: answers, the record stream, port reset, each panel command's execution, and the four strobes
(chapter 9). A command's own effect is the definition its code names in runCommand.
-/

namespace Sys2Proof.Machine

/-! Answers (R159) -/

/-- The port goes to RESULT with some bytes. -/
def offer (bs : List Byte) (s : State) : State := s.onPort fun p => { p with phase := .result bs }

/-- An outcome and the result bytes that follow it. -/
def reply (c : ReplyCode) (bs : List Byte) (s : State) : State := offer (byte c.code :: bs) s

/-- The answer of a command whose outcome stands alone, and the end of its event. -/
def settleReply (r : ReplyCode × State) : State := conclude (reply r.1 [] r.2)

/-! The record stream (R162 to R166) -/

/-- Whether a record matches the filter of a stream (R162). -/
def Stream.matches (st : Stream) (r : Record) : Bool :=
  st.states.testBit r.state.code && r.severity.atLeast st.severity && (st.cls.isNone || st.cls = some r.key.kind.cls) &&
    (st.shelved || !r.shelved)

/-- The first slot from the next one to examine whose record matches (R163). -/
def Stream.next? (st : Stream) (t : Table) : Option Nat :=
  (List.range 48).find? fun i => st.nextSlot ≤ i && (t.slot i).record.any st.matches

/-- The stream ends with an outcome and a resume slot (R166). -/
def endStream (c : ReplyCode) (delivered resume : Nat) (s : State) : State :=
  reply c ([byte delivered, byte resume, byte s.table.seatedCount] ++ bytes4 s.table.raisedSinceClear)
    (s.onPort fun p => { p with window := none })

/-- The stream offers a byte, with the byte window started (R164). -/
def offerStream (st : Stream) (s : State) : State :=
  s.onPort fun p => { p with phase := .streaming st, window := some 2 }

/-- The next record is sought (R163). -/
def seekRecord (st : Stream) (s : State) : State :=
  match st.next? s.table with
  | some i => offerStream { st with nextSlot := i + 1, slot := i, left := s.table.image i } s
  | none => endStream .done st.delivered 255 s

/-- After a delivered record (R163, R165, R166). -/
def afterRecord (tc : Bool) (st : Stream) (s : State) : State :=
  let resume := (st.next? s.table).getD 255
  if tc then endStream .terminated st.delivered resume s
  else if st.maximum ≠ 0 && st.maximum ≤ st.delivered then endStream .done st.delivered resume s
  else seekRecord st s

/-- The byte offered in STREAMING is taken, with TC asserted or not (R163, R165). -/
def takeStreamByte (tc : Bool) (st : Stream) (s : State) : State :=
  match st.left with
  | [] => s
  | _ :: [] => afterRecord tc { st with left := [], delivered := st.delivered + 1 } s
  | _ :: b :: rest =>
    if tc then endStream .terminated st.delivered st.slot s else offerStream { st with left := b :: rest } s

/-! Port reset (R170) -/

/-- The staging set becomes a copy of the running set (R193). -/
def discardStaging (s : State) : State := s.onStore fun st => { st with staging := st.running }

/-- A port reset (R170). -/
def portResets (s : State) : State :=
  (discardStaging s).onPort fun p => { p with
    phase := .idle, protocol := false, window := none, flags := .none, enables := .none, attn := false }

/-! Commands that read -/

def cmdReadSummary (s : State) : State := reply .done (summaryImage s) s

def cmdReadChannels (s : State) : State := reply .done (channelsImage s.level) s

def cmdReadTallies (s : State) : State :=
  reply .done (tallyImage s.balance.weirs.a1.tally ++ tallyImage s.balance.weirs.a2.tally) s

def cmdReadPump (pump : Nat) (s : State) : State :=
  match six? pump with
  | some p => reply .done (pumpImage p s) s
  | none => reply .outOfRange [] s

def cmdReadScreen (screen : Nat) (s : State) : State :=
  match two? screen with
  | some n => reply .done (screenImage n s) s
  | none => reply .outOfRange [] s

/-- FIND CONDITION (R142). -/
def cmdFind (cls number kind : Nat) (s : State) : State :=
  let r := lookKey cls number kind s
  reply r.code r.bytes s

/-- Baud codes (section 12.2), in the order of section 10.1. -/
def baudCode (rate : Nat) : Nat := [9600, 19200, 38400, 57600, 115200].findIdx (· = rate)

/-- READ LINK (R190), with the rate the link uses and the running set's station_id as those in force (R191; DESIGN CHOICE,
assumption 43). -/
def cmdReadLink (s : State) : State :=
  let l := s.link
  let owing := s.table.owing
  reply .done ([byte l.state.code, byte (baudCode l.baud)] ++ bytes2 s.running.stationId ++
    [byte (l.grant.getD 0), byte (l.period.getD 0), byte l.credits, byte l.requests.length] ++
    bytes2 (remaining l.heartbeatTimer 100) ++
    [byte (owing.countP Owing.isRecord), byte (owing.countP fun o => !o.isRecord)] ++ bytes2 l.badFrames) s

def cmdReadClock (s : State) : State :=
  reply .done (stampBytes s.clock.uptime ++ stampBytes s.clock.station ++ [byte (bit s.clock.set)]) s

/-- READ SETTINGS (R193). -/
def cmdReadSettings (which sec field : Nat) (s : State) : State :=
  match fieldRange? sec field, which with
  | some _, 0 => reply .done (bytes4 (s.store.running.get sec field)) s
  | some _, 1 => reply .done (bytes4 (s.store.staging.get sec field)) s
  | _, _ => reply .outOfRange [] s

/-- READ CONDITIONS (R162). A state set with a bit beyond the four states is no set of states, and is out of range
(DEDUCED, assumption 37). -/
def cmdReadConditions (start maximum severity states shelved cls : Nat) (s : State) : State :=
  match severityOf? severity, classFilter? cls with
  | some sev, some c =>
    if start ≤ 47 && maximum ≤ 48 && 1 ≤ states && states ≤ 15 && shelved ≤ 1 then
      seekRecord ⟨maximum, sev, states, shelved = 1, c, start, start, [], 0⟩ s
    else reply .outOfRange [] s
  | _, _ => reply .outOfRange [] s

/-! Commands on the port itself -/

/-- READ ATTENTION (R168). -/
def cmdReadAttention (s : State) : State :=
  let given := s.port.flags.meet s.port.enables
  reply .done [byte given.code] (s.onPort fun p => { p with flags := p.flags.less given }.formAttn)

/-- SET ATTENTION ENABLES (R169). -/
def cmdSetEnables (enables : Byte) (s : State) : State :=
  if enables.toNat < 64 then
    reply .done [] (s.onPort fun p => { p with enables := .ofByte enables }.formAttn)
  else reply .outOfRange [] s

/-! Commands on pumps -/

/-- INHIBIT PUMP (R51). -/
def cmdInhibit (pump : Nat) (s : State) : State :=
  match six? pump with
  | some p => if (s.pump p).panelMark then reply .already [] s else settleReply (.done, setInhibit p .panel s)
  | none => reply .outOfRange [] s

/-- RELEASE PUMP (R51). -/
def cmdRelease (pump : Nat) (s : State) : State :=
  match six? pump with
  | some p => if (s.pump p).panelMark then settleReply (.done, clearInhibit p .panel s) else reply .already [] s
  | none => reply .outOfRange [] s

/-- RESET LOCKOUT (R77, R115). -/
def cmdReset (cls number : Nat) (s : State) : State := settleReply (takeReset cls number s)

/-- The ladder six numbers spell, where they are pumps 1 to 6 each once (R50). -/
def ladderOf? (ns : List Nat) : Option (List Ix6) :=
  let ps := ns.filterMap six?
  if ps.length = 6 && Ix6.all.all ps.contains then some ps else none

/-- SET DUTY ORDER (R50). -/
def cmdSetOrder (ns : List Nat) (s : State) : State :=
  match ladderOf? ns with
  | some l =>
    if l = s.duty.ladder then reply .already [] s
    else settleReply (.done, s.onDuty fun d => { d with ladder := l })
  | none => reply .outOfRange [] s

/-- LOAD TOTALS (R56). -/
def cmdLoadTotals (pump runSeconds starts : Nat) (s : State) : State :=
  match six? pump with
  | some p =>
    if (s.pump p).seq = .off || (s.pump p).seq = .idle then
      reply .done [] (s.onPump p fun q => { q with runSeconds := runSeconds, starts := starts, runTicks := 0 })
    else reply .wrongState [] s
  | none => reply .outOfRange [] s

/-! Commands on screens -/

/-- RAKE CYCLE (R104). -/
def cmdRakeCycle (screen : Nat) (s : State) : State :=
  match two? screen with
  | some n => settleReply (takeRakeCycle n s)
  | none => reply .outOfRange [] s

/-- RAKE HOME (R106). -/
def cmdRakeHome (screen : Nat) (s : State) : State :=
  match two? screen with
  | some n => settleReply (takeRakeHome n s)
  | none => reply .outOfRange [] s

/-- RAKE POSITION (R107). -/
def cmdRakePosition (screen target : Nat) (s : State) : State :=
  match two? screen with
  | some n => settleReply (takeRakePosition n target s)
  | none => reply .outOfRange [] s

/-- RAKE FINISH (R108). -/
def cmdRakeFinish (screen count : Nat) (s : State) : State :=
  match two? screen with
  | some n => settleReply (takeRakeFinish n count s)
  | none => reply .outOfRange [] s

/-- SENSE SCREEN (R116). -/
def cmdSense (screen : Nat) (s : State) : State :=
  match two? screen with
  | some n =>
    match (s.screen n).completion with
    | some c => reply .done c.image (s.onScreen n fun sc => { sc with completion := none })
    | none => reply .notFound [] s
  | none => reply .outOfRange [] s

/-! Commands on conditions -/

/-- ACKNOWLEDGE (R128). -/
def cmdAcknowledge (slot gen : Nat) (s : State) : State := settleReply (takeAcknowledge slot gen .panel s)

/-- RETIRE (R130). -/
def cmdRetire (slot gen : Nat) (s : State) : State := settleReply (takeRetire slot gen s)

/-- ACKNOWLEDGE ALL (R140). -/
def cmdAckAll (severity cls shelved : Nat) (s : State) : State :=
  match severityOf? severity, classFilter? cls with
  | some sev, some c =>
    if shelved ≤ 1 then
      let r := takeAckAll sev c (shelved = 1) s
      conclude (reply r.1 [byte r.2.1] r.2.2)
    else reply .outOfRange [] s
  | _, _ => reply .outOfRange [] s

/-- RETIRE DORMANT (R141). -/
def cmdRetireDormant (s : State) : State :=
  let r := takeRetireDormant s
  conclude (reply .done [byte r.1] r.2)

/-- The shelf timer of the record in a slot is started; setting the flag is a change (R135). -/
def shelveSlot (i minutes : Nat) (s : State) : State :=
  match (s.table.slot i).record with
  | none => s
  | some r =>
    let r1 := { r with shelved := true, shelf := seconds (60 * minutes) }
    if r.shelved then s.onTable fun t => { t with slots := t.slots.set i { t.slot i with record := some r1 } }
    else changeRecord i (fun _ => r1) s

/-- Whether a record's kind may be shelved now (R135). -/
def mayShelve (i : Nat) (s : State) : Bool :=
  (s.table.slot i).record.any fun r => r.key.kind.shelvable && s.running.permitsShelving r.key.kind

/-- SHELVE (R135). -/
def cmdShelve (slot gen minutes : Nat) (s : State) : State :=
  match s.table.resolve slot gen with
  | .error o => reply o [] s
  | .ok i =>
    if 1 ≤ minutes && minutes ≤ 480 then
      if mayShelve i s then settleReply (.done, shelveSlot i minutes s) else reply .notShelvable [] s
    else reply .outOfRange [] s

/-- UNSHELVE (R136). -/
def cmdUnshelve (slot gen : Nat) (s : State) : State :=
  match s.table.resolve slot gen with
  | .error o => reply o [] s
  | .ok i =>
    if (s.table.slot i).record.any Record.shelved then settleReply (.done, unshelveSlot i s) else reply .already [] s

/-- A post is a raise that never waits (R138): answered with the record's handle, or suppressed. -/
def takePost (code : Nat) (sev : Severity) (extra : List Byte) (s : State) : Reply × State :=
  let k : Key := ⟨.panelPosted, code⟩
  let s1 := countRaise s
  let handle := fun (i : Nat) (t : State) => (⟨.done, [byte i, byte (t.table.slot i).gen]⟩, t)
  match s1.table.seatedAt? k with
  | some i => handle i (raiseSeated i sev extra s1)
  | none =>
    match s1.table.place? with
    | some i => handle i (seat i k sev extra s1.clock.station s1)
    | none => (.of .suppressed, countSuppression sev s1)

/-- POST CONDITION (R138). -/
def cmdPost (code severity length : Nat) (data : List Byte) (s : State) : State :=
  match severityOf? severity with
  | some sev =>
    if length ≤ 8 then
      let r := takePost code sev (data.take length) s
      conclude (reply r.1.code r.1.bytes r.2)
    else reply .outOfRange [] s
  | none => reply .outOfRange [] s

/-- RETURN CONDITION (R139). -/
def takeReturn (code : Nat) (s : State) : ReplyCode × State :=
  let k : Key := ⟨.panelPosted, code⟩
  match s.table.seatedAt? k with
  | some i =>
    if (s.table.slot i).record.any fun r => r.state = .raised || r.state = .acked then (.done, returnKey k s)
    else (.already, s)
  | none => (.notFound, s)

def cmdReturn (code : Nat) (s : State) : State := settleReply (takeReturn code s)

/-- SILENCE (R147). -/
def cmdSilence (s : State) : State := settleReply (takeSilence s)

/-! Commands on settings and the clock -/

/-- LOAD SETTINGS (R193). -/
def cmdLoadSettings (sec field value : Nat) (s : State) : State :=
  match s.store.staging.load? sec field value with
  | some c => reply .done [] (s.onStore fun st => { st with staging := c })
  | none => reply .outOfRange [] s

/-- DISCARD SETTINGS (R193). -/
def cmdDiscard (s : State) : State := reply .done [] (discardStaging s)

/-- COMMIT SETTINGS (R161, R194, R195). -/
def cmdCommit (s : State) : State :=
  if s.store.writing.isSome then reply .wrongState [] s
  else
    match s.store.staging.firstBroken? with
    | some f => reply .settingsRejected [byte f.1, byte f.2] (setFlag .settings s)
    | none => conclude ((applyCommit s).onPort fun p => { p with phase := .executing })

/-- SET CLOCK (R197). -/
def cmdSetClock (secs ticks : Nat) (s : State) : State :=
  if ticks ≤ 99 then reply .done [] (setStation ⟨secs, ticks⟩ s) else reply .outOfRange [] s

/-! Execution (R156, R159) -/

/-- The command a code names is executed with its parameter bytes. -/
def runCommand (code : Nat) (p : List Byte) (s : State) : State :=
  match code with
  | 0x01 => cmdReadSummary s
  | 0x02 => cmdReadChannels s
  | 0x03 => cmdReadTallies s
  | 0x10 => cmdReadPump (byteAt p 0) s
  | 0x11 => cmdInhibit (byteAt p 0) s
  | 0x12 => cmdRelease (byteAt p 0) s
  | 0x13 => cmdReset (byteAt p 0) (byteAt p 1) s
  | 0x14 => cmdSetOrder (p.map BitVec.toNat) s
  | 0x15 => cmdLoadTotals (byteAt p 0) (wordAt p 1 4) (wordAt p 5 4) s
  | 0x20 => cmdReadScreen (byteAt p 0) s
  | 0x21 => cmdRakeCycle (byteAt p 0) s
  | 0x22 => cmdRakeHome (byteAt p 0) s
  | 0x23 => cmdRakePosition (byteAt p 0) (wordAt p 1 2) s
  | 0x24 => cmdRakeFinish (byteAt p 0) (byteAt p 1) s
  | 0x25 => cmdSense (byteAt p 0) s
  | 0x30 => cmdReadConditions (byteAt p 0) (byteAt p 1) (byteAt p 2) (byteAt p 3) (byteAt p 4) (byteAt p 5) s
  | 0x31 => cmdFind (byteAt p 0) (byteAt p 1) (byteAt p 2) s
  | 0x32 => cmdAcknowledge (byteAt p 0) (byteAt p 1) s
  | 0x33 => cmdAckAll (byteAt p 0) (byteAt p 1) (byteAt p 2) s
  | 0x34 => cmdShelve (byteAt p 0) (byteAt p 1) (wordAt p 2 2) s
  | 0x35 => cmdUnshelve (byteAt p 0) (byteAt p 1) s
  | 0x36 => cmdRetire (byteAt p 0) (byteAt p 1) s
  | 0x37 => cmdRetireDormant s
  | 0x38 => cmdPost (byteAt p 0) (byteAt p 1) (byteAt p 2) (p.drop 3) s
  | 0x39 => cmdReturn (byteAt p 0) s
  | 0x3A => cmdSilence s
  | 0x40 => cmdLoadSettings (byteAt p 0) (byteAt p 1) (wordAt p 2 4) s
  | 0x41 => cmdReadSettings (byteAt p 0) (byteAt p 1) (byteAt p 2) s
  | 0x42 => cmdCommit s
  | 0x43 => cmdDiscard s
  | 0x50 => cmdSetClock (wordAt p 0 4) (byteAt p 4) s
  | 0x51 => cmdReadClock s
  | 0x52 => cmdReadLink s
  | 0x60 => cmdReadAttention s
  | 0x61 => cmdSetEnables (p.getD 0 0) s
  | _ => portResets s

/-! Strobes (R154 to R158, R171) -/

/-- A protocol fault (R158). -/
def portFault (s : State) : State := s.onPort fun p => { p with protocol := true }

/-- A byte written in IDLE is a command code (R156, R157). -/
def takeCode (b : Byte) (s : State) : State :=
  let s1 := s.onPort fun p => { p with protocol := false }
  match parameterCount? b.toNat with
  | none => reply .invalidCommand [] s1
  | some 0 => runCommand b.toNat [] s1
  | some (_ + 1) => s1.onPort fun p => { p with phase := .parameters b [] }

/-- A byte written in PARAMETERS is the next parameter (R156). -/
def takeParameter (code : Byte) (received : List Byte) (b : Byte) (s : State) : State :=
  if (parameterCount? code.toNat).getD 0 ≤ received.length + 1 then runCommand code.toNat (received ++ [b]) s
  else s.onPort fun p => { p with phase := .parameters code (received ++ [b]) }

/-- Write, A0 = 1 (R154). While RESET# is asserted no strobe is taken (R171). -/
def dataWrite (b : Byte) (s : State) : State :=
  if s.port.resetLine then s
  else
    match s.port.phase with
    | .idle => takeCode b s
    | .parameters code received => takeParameter code received b s
    | .executing | .streaming _ | .result _ => portFault s

/-- Bytes written one after another to the data address. -/
def writeBytes (bs : List Byte) (s : State) : State := bs.foldl (fun s b => dataWrite b s) s

/-- The port gives a byte on D0 to D7. -/
def give (b : Byte) (s : State) : State := s.onPort fun p => { p with dataOut := b }

/-- Read, A0 = 1 (R154, R159, R163). -/
def readData (tc : Bool) (s : State) : State :=
  if s.port.resetLine then s
  else
    match s.port.phase with
    | .streaming st => takeStreamByte tc st (give (st.left.headD 0) s)
    | .result (b :: rest) =>
      (give b s).onPort fun p => { p with phase := if rest = [] then .idle else .result rest }
    | .result [] | .idle | .parameters _ _ | .executing => portFault (give 0 s)

/-- Write, A0 = 0 (R154, R170). -/
def writeStatus (b : Byte) (s : State) : State :=
  if s.port.resetLine then s else if b = 0x5A then portResets s else portFault s

/-- The status byte a read with A0 = 0 gives (R155, R171). -/
def statusByte (p : Port) : Nat :=
  let ready := match p.phase with
    | .executing => false
    | _ => !p.resetLine
  let toPanel := match p.phase with
    | .streaming _ | .result _ => true
    | _ => false
  let stream := match p.phase with
    | .streaming _ => true
    | _ => false
  bits [ready, toPanel, p.phase ≠ .idle, stream, p.protocol, p.attn]

end Sys2Proof.Machine
end

