-- ==== Sys2Proof/Machine/ColdStart.lean ====
section
/-!
DEFINITION. The cold start (R198, R199): every block in its cold-start values, the lines as they stand, and the raises of
the causes found present.
-/

namespace Sys2Proof.Machine

/-- The settings a cold start loads (R198). -/
def loadedSettings (st : Store) : Settings :=
  if st.checksumGood && st.image.firstFault?.isNone then st.image else .factory

/-- Extra data of SETTINGS-FAULT where the stored set is not loaded, or none where it is (R198, section 12.3). -/
def loadFault? (st : Store) : Option (List Byte) :=
  if st.checksumGood then st.image.firstFault?.map fun f => [byte f.1, byte f.2] else some [0, 0]

/-- Level Acquisition at cold start, the floats' lines as they stand (R17). -/
def coldLevel (c : Settings) (l : Level) : Level :=
  { Level.cold c with low := l.low.coldFloat, high := l.high.coldFloat, highHigh := l.highHigh.coldFloat }

/-- A pump at cold start, its lines read without debounce (R59, R80). -/
def coldPump (q : Pump) : Pump :=
  let sel := selectorOf q.hand.line q.auto.line
  { Pump.cold with
    hand := q.hand.asRead
    auto := q.auto.asRead
    feedback := q.feedback.asRead
    thermal := q.thermal.asRead
    sealProbe := q.sealProbe.asRead
    selector := sel
    seq := match sel with
      | .off => .off
      | .hand => .hand
      | .auto => if q.feedback.line then .runOn else .idle
    locks := { Pump.cold.locks with thermal := q.thermal.line } }

/-- The Power Allocator at cold start, its lines read without debounce (R95). -/
def coldPower (w : Power) : Power :=
  let w1 := { Power.cold with
    mainsOk := w.mainsOk.asRead, genOn := w.genOn.asRead, transferReq := w.transferReq.asRead }
  { w1 with source := w1.derive }

/-- A screen at cold start, its inputs read without debounce, before its rake homes (R119). -/
def coldScreen (sc : Screen) : Screen :=
  { Screen.cold with home := sc.home.asRead, bottom := sc.bottom.asRead, overload := sc.overload.asRead }

/-- Every block in its cold-start values (R199), the input lines and the store as they stand. -/
def coldBlocks (s : State) : State :=
  let c := loadedSettings s.store
  { clock := ⟨.zero, .zero, false⟩
    level := coldLevel c s.level
    balance := .cold
    pumps := s.pumps.map coldPump
    duty := .cold
    power := coldPower s.power
    screens := s.screens.map coldScreen
    table := .cold
    ann := .cold
    port := { Port.cold with resetLine := s.port.resetLine }
    link := .cold c
    store :=
      { running := c, staging := c, image := s.store.image, checksumGood := s.store.checksumGood, writing := none
        settingsFault := (loadFault? s.store).isSome, writeFail := false }
    shown := .cold c.rotationFixed
    pending := s.pending }

/-! The causes found present, offered block by block (assumption 30) -/

/-- A pump's raises at cold start (R80). -/
def raisePump (s : State) (p : Ix6) : State :=
  let s1 := if (s.pump p).seq = .runOn then raiseKind .pumpFailStop p.num [byte Route.coldStart.code] s else s
  let s2 := if (s.pump p).locks.thermal then raiseKind .pumpThermal p.num [byte (s.pump p).seq.code] s1 else s1
  if (s.pump p).sealProbe.state then raiseKind .pumpSeal p.num [] s2 else s2

/-- The transferring mark is set (R90). -/
def beginTransfer (s : State) : State := setFlag .power (s.onPower fun w => { w with transferring := true })

/-- The Power Allocator's raises at cold start, and a request read made (R95). The source derived is a cold-start value and
no change of source, so it sets no POWER flag (DESIGN CHOICE, assumption 42). -/
def raisePower (s : State) : State :=
  let s1 := (sourceEdges .mains s.power.source s.power.lines).foldl (fun s e => offerEdge e s) s
  if s.power.transferReq.state then testAck (beginTransfer s1) else s1

/-- A rake locks for an overload read made, or begins to home (R119). -/
def startRake (s : State) (n : Ix2) : State :=
  if (s.screen n).overload.state then lockRake n .overload [byte (s.screen n).rake.code] s
  else beginOp n (.home true) s

/-- The link enters JOINING where it is enabled (R192). -/
def startLink (s : State) : State := if s.running.linkEnable then enterJoining s else s

/-- SETTINGS-FAULT is raised at the end of cold start where the stored set was not loaded (R198). -/
def raiseSettings (f : Option (List Byte)) (s : State) : State :=
  match f with
  | some x => raiseKind .settingsFault 0 x s
  | none => s

/-- A cold start (R198, R199). -/
def coldStart (s : State) : State :=
  let s1 := raisePower (Ix6.all.foldl raisePump (coldBlocks s))
  conclude (raiseSettings (loadFault? s.store) (startLink (Ix2.all.foldl startRake s1)))

end Sys2Proof.Machine
end

