-- ==== Sys2Proof/Machine/Clock.lean ====
section
/-!
DEFINITION. 10 ms of uptime: both clocks advance and every timer runs down (R197, R55, section 11.4). A timer that has
run out stays at zero until its expiry is taken (assumption 3).
-/

namespace Sys2Proof.Machine

def Level.tick (l : Level) : Level :=
  { l with
    low := l.low.tick, high := l.high.tick, highHigh := l.highHigh.tick, roundTimer := timerTick l.roundTimer }

def Balance.tick (b : Balance) : Balance :=
  { b with weirs := b.weirs.map fun w => { w with separation := timerTick w.separation } }

/-- A pump's timers, and its run tick while its feedback is present (R55). -/
def Pump.tick (q : Pump) : Pump :=
  { q with
    hand := q.hand.tick
    auto := q.auto.tick
    feedback := q.feedback.tick
    thermal := q.thermal.tick
    sealProbe := q.sealProbe.tick
    startWindow := timerTick q.startWindow
    minRun := timerTick q.minRun
    stopWindow := timerTick q.stopWindow
    runDown := timerTick q.runDown
    headTimer := timerTick q.headTimer
    runTicks := if q.feedback.state then q.runTicks + 1 else q.runTicks }

def Duty.tick (d : Duty) : Duty := { d with drawdownTimer := timerTick d.drawdownTimer }

def Power.tick (w : Power) : Power :=
  { w with
    mainsOk := w.mainsOk.tick, genOn := w.genOn.tick, transferReq := w.transferReq.tick, stagger := timerTick w.stagger }

def Screen.tick (sc : Screen) : Screen :=
  { sc with
    home := sc.home.tick
    bottom := sc.bottom.tick
    overload := sc.overload.tick
    jamTimer := timerTick sc.jamTimer
    dwell := timerTick sc.dwell
    reverse := timerTick sc.reverse }

def Slot.tick (sl : Slot) : Slot :=
  { sl with record := sl.record.map fun r => { r with shelf := timerTick r.shelf } }

def Table.tick (t : Table) : Table := { t with slots := t.slots.map Slot.tick }

def Port.tick (p : Port) : Port := { p with window := timerTick p.window, resetTimer := timerTick p.resetTimer }

def Link.tick (l : Link) : Link :=
  { l with
    interByte := timerTick l.interByte
    heartbeatTimer := timerTick l.heartbeatTimer
    statusTimer := timerTick l.statusTimer
    offerTimer := timerTick l.offerTimer
    lossTimer := timerTick l.lossTimer }

/-- One tick of uptime for the whole part (R197). -/
def tick (s : State) : State :=
  { s with
    clock := { s.clock with uptime := s.clock.uptime.next, station := s.clock.station.next }
    level := s.level.tick
    balance := s.balance.tick
    pumps := s.pumps.map Pump.tick
    duty := s.duty.tick
    power := s.power.tick
    screens := s.screens.map Screen.tick
    table := s.table.tick
    port := s.port.tick
    link := s.link.tick
    store := { s.store with writing := timerTick s.store.writing } }

end Sys2Proof.Machine
end

