-- ==== Sys2Proof/Machine/Events.lean ====
section
/-!
DEFINITION. The commands that are events of the plant, of a timer or of a line. An event whose own condition does not
hold, such as the expiry of a timer that is not running, changes nothing (assumption 2).
-/

namespace Sys2Proof.Machine

/-- The answer of a command: every command goes on to a next state. -/
abbrev Answer := Host.Outcome State Fault Refusal

/-- An event that acts only where its condition holds. -/
def when (enabled : Bool) (f : State → State) (s : State) : Answer := .next (if enabled then f s else s)

/-! Rounds and periods (R1, R5) -/

/-- What a period end does to the Duty Controller and the screens before the called set is formed (R42, R43, R54, R97):
entry to FLOAT mode ends a drawdown, the head-blocked delays and marks follow, and the screens' differentials and BLOCKED
flags are formed. The edges are those of `offerPeriodEdges`. -/
def blocksPeriodEnd (lostLevel : Bool) (s : State) : State :=
  formScreens (headPeriodEnd (if lostLevel then s.onDuty Duty.endDrawdown else s))

/-- The edges of a period end after Level Acquisition's, from the state that R14 hands on and the state its receivers make
of it. R18 takes STORM, SPILLING and, by its hand-over to the Duty Controller, PUMP-HEAD-BLOCKED one after another. The
return of DRAWDOWN and SCREEN-BLOCKED wait on R14 alone (R54, R97), so they go among those in slot order (R123,
assumption 14). -/
def offerPeriodEdges (handed formed : State) : State :=
  offerStages
    [stormEdge handed.balance formed.balance, spillEdges handed.balance formed.balance, headEdges handed formed]
    (causeEdge .drawdown 0 handed.duty.drawdownActive formed.duty.drawdownActive [] ++ blockedEdges handed formed) formed

/-- What the summary shows until the next period end is taken from the values now formed (R16, R34, R57, R172). -/
def showPeriod (s : State) : State :=
  { s with shown :=
    { low := s.level.low.state
      high := s.level.high.state
      highHigh := s.level.highHigh.state
      spills := s.balance.weirs.map Weir.spill
      wanted := s.duty.wanted
      ladder := s.duty.ladder
      called := s.pumps.map Pump.called
      rotationFixed := s.running.rotationFixed
      drawdownActive := s.duty.drawdownActive
      drawdown := s.duty.drawdown
      drawdownMinutes := s.duty.drawdownMinutes } }

/-- Everything a period end does (R5, R18, R42 to R48, R97, R103), after the samples of its round. No rule orders the
BLOCKED tests, the called set and the rakes' triggers at one period end: the BLOCKED tests come first, then the newly
called pumps join the claim queue and the grants are made, then the triggers are tested (DESIGN CHOICE, assumption 12). -/
def takePeriodEnd (s : State) : State :=
  let s1 := levelPeriodEnd s
  let s2 := blocksPeriodEnd (s.level.mode = .level && s1.level.mode = .float)
    (balancePeriodEnd s.level.periodSecs s1)
  showPeriod (settle (testAllTriggers (settle (wantedPeriodEnd (offerPeriodEdges s1 s2)))))

/-- A round, and the period end it may be. -/
def roundEvent (samples : Six (BitVec 12)) (reference : BitVec 12) (s : State) : State :=
  let s1 := takeRound samples reference s
  conclude (if periodComplete s1 then takePeriodEnd s1 else s1)

def execRoundComplete (samples : Six (BitVec 12)) (reference : BitVec 12) (s : State) : Answer :=
  when (timerDue s.level.roundTimer) (roundEvent samples reference) s

/-- The round that completes the period, with its period end. -/
def periodEvent (samples : Six (BitVec 12)) (reference : BitVec 12) (s : State) : State :=
  conclude (takePeriodEnd (takeRound samples reference s))

/-- Whether the next round is the last of its period (R5). -/
def lastRound (s : State) : Bool := 10 * s.level.periodSecs ≤ s.level.rounds + 1

def execPeriodEnd (samples : Six (BitVec 12)) (reference : BitVec 12) (s : State) : Answer :=
  when (timerDue s.level.roundTimer && lastRound s) (periodEvent samples reference) s

/-! Floats (R8, R13, R46) -/

def execFloatInputChange (float : FloatId) (made : Bool) (s : State) : Answer :=
  .next (s.onLevel (Level.onFloat float (Debounced.change made 200)))

def floatExpiry (float : FloatId) (s : State) : State :=
  let s1 := s.onLevel (Level.onFloat float Debounced.take)
  let s2 := if float = .highHigh then followHighHighFloat s1 else s1
  conclude (wantedAtFloat float s2)

def execFloatDebounceExpiry (float : FloatId) (s : State) : Answer :=
  when (s.level.float float).due (floatExpiry float) s

/-! Weirs (R31) -/

def execSeparationTimerExpiry (weir : Ix2) (s : State) : Answer :=
  let w := s.balance.weirs.get weir
  when (timerDue w.separation && w.spill = .settling) (fun s => conclude (separationExpires weir s)) s

/-! Selectors (R38) -/

def execSelectorLineChange (pump : Ix6) (line : SelectorLine) (made : Bool) (s : State) : Answer :=
  .next (s.onPump pump (Pump.onLine line (Debounced.change made 100)))

def execSelectorDebounceExpiry (pump : Ix6) (line : SelectorLine) (s : State) : Answer :=
  when ((s.pump pump).line line).due
    (fun s => conclude (deriveSelector pump (s.onPump pump (Pump.onLine line Debounced.take)))) s

/-! Duty (R40, R42, R54, R55) -/

def execStartHistoryAgeOut (pump : Ix6) (s : State) : Answer :=
  when (oldestAged s.clock.uptime (s.pump pump).history)
    (fun s => conclude (reviewStarts pump (s.onPump pump fun q => { q with history := q.history.tail }))) s

def execHeadBlockedDelayExpiry (pump : Ix6) (s : State) : Answer :=
  when (timerDue (s.pump pump).headTimer) (fun s => conclude (headDelayExpires pump s)) s

def execDrawdownExpiry (s : State) : Answer :=
  when (timerDue s.duty.drawdownTimer) (fun s => conclude (endDrawdown s)) s

/-- The run tick count reaches 100: a second of running (R55). -/
def countRunSecond (q : Pump) : Pump :=
  { q with runTicks := q.runTicks - 100, runSeconds := saturate max32 (q.runSeconds + 1) }

def execRunSecondsTick (pump : Ix6) (s : State) : Answer :=
  when (100 ≤ (s.pump pump).runTicks) (fun s => s.onPump pump countRunSecond) s

/-! Pump inputs, windows and timers (R60, R65, R66, R70) -/

def execPumpInputChange (pump : Ix6) (input : PumpInput) (value : Bool) (s : State) : Answer :=
  .next (s.onPump pump (Pump.onInput input (Debounced.change value 50)))

def execPumpInputDebounceExpiry (pump : Ix6) (input : PumpInput) (s : State) : Answer :=
  when ((s.pump pump).input input).due
    (fun s => conclude (pumpInputMoved pump input (s.onPump pump (Pump.onInput input Debounced.take)))) s

def execStartWindowExpiry (pump : Ix6) (s : State) : Answer :=
  when (timerDue (s.pump pump).startWindow && (s.pump pump).seq = .starting)
    (fun s => conclude (startWindowExpires pump s)) s

def execMinRunExpiry (pump : Ix6) (s : State) : Answer :=
  when (timerDue (s.pump pump).minRun) (fun s => conclude (s.onPump pump fun q => { q with minRun := none })) s

def execStopWindowExpiry (pump : Ix6) (s : State) : Answer :=
  when (timerDue (s.pump pump).stopWindow && (s.pump pump).seq = .stopping)
    (fun s => conclude (stopWindowExpires pump s)) s

def execRunDownExpiry (pump : Ix6) (s : State) : Answer :=
  when (timerDue (s.pump pump).runDown && (s.pump pump).seq = .stopping)
    (fun s => conclude (runDownExpires pump s)) s

/-! Power lines (R81, R87, R90, R92) -/

def Power.line (w : Power) : PowerLine → Debounced
  | .mainsOk => w.mainsOk | .genOn => w.genOn | .transferReq => w.transferReq

def Power.onLine (l : PowerLine) (f : Debounced → Debounced) (w : Power) : Power :=
  match l with
  | .mainsOk => { w with mainsOk := f w.mainsOk }
  | .genOn => { w with genOn := f w.genOn }
  | .transferReq => { w with transferReq := f w.transferReq }

/-- The request drops (R92): TRANSFER-ACK and the mark go, and the source is derived afresh. -/
def endTransfer (s : State) : State :=
  deriveSource (setFlag .power (s.onPower fun w => { w with ack := false, transferring := false }))

/-- A debounced power line has moved (R81, R90, R92). -/
def powerLineMoved (line : PowerLine) (s : State) : State :=
  match line with
  | .transferReq =>
    if s.power.transferReq.state then if s.power.transferring then s else beginTransfer s
    else if s.power.transferring then endTransfer s else s
  | .mainsOk | .genOn => if s.power.transferring then s else deriveSource s

def execPowerLineChange (line : PowerLine) (made : Bool) (s : State) : Answer :=
  .next (s.onPower (Power.onLine line (Debounced.change made 50)))

def execPowerLineDebounceExpiry (line : PowerLine) (s : State) : Answer :=
  when (s.power.line line).due
    (fun s => conclude (powerLineMoved line (s.onPower (Power.onLine line Debounced.take)))) s

def execStaggerTimerExpiry (s : State) : Answer :=
  when (timerDue s.power.stagger) (fun s => conclude (s.onPower fun w => { w with stagger := none })) s

/-! Rakes (R96, R101, R102, R111, R112) -/

def execRakeInputChange (screen : Ix2) (input : RakeInput) (made : Bool) (s : State) : Answer :=
  .next (s.onScreen screen (Screen.onInput input (Debounced.change made 5)))

def execRakeInputDebounceExpiry (screen : Ix2) (input : RakeInput) (s : State) : Answer :=
  when ((s.screen screen).input input).due
    (fun s => conclude (rakeInputMoved screen input (s.onScreen screen (Screen.onInput input Debounced.take)))) s

def execPulse (screen : Ix2) (s : State) : Answer :=
  when ((s.screen screen).up || (s.screen screen).down) (fun s => conclude (takePulse screen s)) s

def execGripDwellExpiry (screen : Ix2) (s : State) : Answer :=
  when (timerDue (s.screen screen).dwell && (s.screen screen).rake = .gripping)
    (fun s => conclude (gripExpires screen s)) s

def execDischargeDwellExpiry (screen : Ix2) (s : State) : Answer :=
  when (timerDue (s.screen screen).dwell && (s.screen screen).rake = .discharging)
    (fun s => conclude (dischargeExpires screen s)) s

def execJamTimerExpiry (screen : Ix2) (s : State) : Answer :=
  when (timerDue (s.screen screen).jamTimer) (fun s => conclude (jamExpires screen s)) s

def execReverseTimerExpiry (screen : Ix2) (s : State) : Answer :=
  when (timerDue (s.screen screen).reverse && (s.screen screen).rake = .reversing)
    (fun s => conclude (endReverse screen s)) s

/-! Shelves and lamps (R136, R151) -/

def execShelfTimerExpiry (slot : Fin 48) (s : State) : Answer :=
  when ((s.table.slot slot.val).record.any fun r => r.shelved && timerDue r.shelf)
    (fun s => conclude (unshelveSlot slot.val s)) s

def execFlashPhase (s : State) : Answer :=
  .next (s.onAnn fun a => { a with flashOn := decide (s.clock.uptime.ticks < 50) })

/-! Panel port: strobes, byte window and RESET# (R154, R158, R164, R170, R171) -/

def execStatusWrite (byte : Byte) (s : State) : Answer := .next (writeStatus byte s)

def execDataRead (tc : Bool) (s : State) : Answer := .next (readData tc s)

def execParameterByte (byte : Byte) (s : State) : Answer := .next (dataWrite byte s)

def execCommandCodeWrite (byte : Byte) (s : State) : Answer := .next (writeBytes [byte] s)

/-- A code that names no command is written (R157). A code that names one is another command's. -/
def execInvalidCommand (code : Byte) (s : State) : Answer :=
  when (parameterCount? code.toNat == none) (dataWrite code) s

/-- The stream ends with OVERRUN, to be resumed at the abandoned record (R164, R166). -/
def windowExpires (s : State) : State :=
  match s.port.phase with
  | .streaming st => endStream .overrun st.delivered st.slot s
  | _ => s

def execByteWindowExpiry (s : State) : Answer := when (timerDue s.port.window) windowExpires s

def execResetAssert (s : State) : Answer :=
  when (!s.port.resetLine) (fun s => s.onPort fun p => { p with resetLine := true, resetTimer := some 1 }) s

/-- RESET# is released: before its timer expires, a port reset (R171). -/
def releaseReset (s : State) : State :=
  let s1 := s.onPort fun p => { p with resetLine := false, resetTimer := none }
  if s.port.resetTimer.isSome then portResets s1 else s1

def execResetRelease (s : State) : Answer := when s.port.resetLine releaseReset s

def execResetTimerExpiry (s : State) : Answer :=
  when (s.port.resetLine && timerDue s.port.resetTimer) coldStart s

/-! Town link: the line and the timers (R174, R175, R177, R180, R188) -/

/-- The link assembles frames: every state but OFFLINE (R174). -/
def assembles (s : State) : Bool := s.link.state ≠ .offline

def execFrameCheckFail (s : State) : Answer := when (assembles s) badFrame s

def execFramingError (s : State) : Answer := when (assembles s) hunt s

def execInterByteTimerExpiry (s : State) : Answer := when (timerDue s.link.interByte) hunt s

def execByteReceived (byte : Byte) (s : State) : Answer := .next (receiveByte byte s)

/-- The transmitter is free again, and a response that was on the line frees its slot (R175, R183). -/
def frameLeaves (s : State) : State :=
  transmit (s.onLink fun l => { l with sending := none, requests := l.requests.filter Request.waits })

def execFrameSent (s : State) : Answer := when s.link.sending.isSome frameLeaves s

def execOfferTimerExpiry (s : State) : Answer :=
  when (timerDue s.link.offerTimer && s.link.state = .joining)
    (fun s => transmit (s.onLink fun l => { l with offersOwed := l.offersOwed + 1, offerTimer := seconds 5 })) s

def execHeartbeatTimerExpiry (s : State) : Answer :=
  when (timerDue s.link.heartbeatTimer && (s.link.state = .online || s.link.state = .quiet))
    (fun s => conclude (heartbeatExpires s)) s

def execStatusTimerExpiry (s : State) : Answer :=
  when (timerDue s.link.statusTimer && (s.link.state = .online || s.link.state = .quiet))
    (fun s => transmit (statusExpires s)) s

def execLossTimerExpiry (s : State) : Answer :=
  when (timerDue s.link.lossTimer && s.link.state = .lost)
    (fun s => transmit (setFlag .link (enterJoining s))) s

/-! Store, clock and cold start (R196 to R199) -/

/-- A report of the store (R196). It is taken as the report of the write now in hand, though it may be that of an earlier
write that timed out (DESIGN CHOICE, assumption 41). -/
def execStoreWriteReport (complete : Bool) (s : State) : Answer :=
  when s.store.writing.isSome
    (fun s => conclude (endWrite (if complete then WriteEnd.complete else WriteEnd.failed) s)) s

def execStoreTimeoutExpiry (s : State) : Answer :=
  when (timerDue s.store.writing) (fun s => conclude (endWrite .timedOut s)) s

def execClockTick (s : State) : Answer := .next (tick s)

def execColdStart (s : State) : Answer := .next (coldStart s)

end Sys2Proof.Machine
end

