-- ==== Sys2Proof/Machine/Commands.lean ====
section
/-!
DEFINITION. The panel commands: the bytes of each exchange's command phase, code first, written one after another to the
data address (R156, section 12.2). What the port makes of them is its phase's affair: in IDLE the last of them executes
the command by R159, and PanelPort.lean holds each command's effect (assumption 4).
-/

namespace Sys2Proof.Machine

/-- READ TALLIES (R34). -/
def execReadTallies (s : State) : Answer :=
  .next (writeBytes [0x03] s)

/-- READ CHANNELS (R16). -/
def execReadChannels (s : State) : Answer :=
  .next (writeBytes [0x02] s)

/-- SET DUTY ORDER (R50). -/
def execSetDutyOrder (order : Six Byte) (s : State) : Answer :=
  .next (writeBytes (0x14 :: order.toList) s)

/-- INHIBIT PUMP (R51). -/
def execInhibitPump (pump : Byte) (s : State) : Answer :=
  .next (writeBytes [0x11, pump] s)

/-- RELEASE PUMP (R51). -/
def execReleasePump (pump : Byte) (s : State) : Answer :=
  .next (writeBytes [0x12, pump] s)

/-- LOAD TOTALS (R56). -/
def execLoadTotals (pump : Byte) (runSeconds starts : BitVec 32) (s : State) : Answer :=
  .next (writeBytes (0x15 :: pump :: (bytes4 runSeconds.toNat ++ bytes4 starts.toNat)) s)

/-- READ PUMP (R57). -/
def execReadPump (pump : Byte) (s : State) : Answer :=
  .next (writeBytes [0x10, pump] s)

/-- RESET LOCKOUT (R77, R115). -/
def execResetLockout (cls number : Byte) (s : State) : Answer :=
  .next (writeBytes [0x13, cls, number] s)

/-- RAKE CYCLE (R104). -/
def execRakeCycle (screen : Byte) (s : State) : Answer :=
  .next (writeBytes [0x21, screen] s)

/-- RAKE HOME (R106). -/
def execRakeHome (screen : Byte) (s : State) : Answer :=
  .next (writeBytes [0x22, screen] s)

/-- RAKE POSITION (R107). -/
def execRakePosition (screen : Byte) (position : BitVec 16) (s : State) : Answer :=
  .next (writeBytes (0x23 :: screen :: bytes2 position.toNat) s)

/-- RAKE FINISH (R108). -/
def execRakeFinish (screen count : Byte) (s : State) : Answer :=
  .next (writeBytes [0x24, screen, count] s)

/-- SENSE SCREEN (R116). -/
def execSenseScreen (screen : Byte) (s : State) : Answer :=
  .next (writeBytes [0x25, screen] s)

/-- READ SCREEN (R117). -/
def execReadScreen (screen : Byte) (s : State) : Answer :=
  .next (writeBytes [0x20, screen] s)

/-- ACKNOWLEDGE (R128). -/
def execAcknowledge (slot generation : Byte) (s : State) : Answer :=
  .next (writeBytes [0x32, slot, generation] s)

/-- RETIRE (R130). -/
def execRetire (slot generation : Byte) (s : State) : Answer :=
  .next (writeBytes [0x36, slot, generation] s)

/-- SHELVE (R135). -/
def execShelve (slot generation : Byte) (minutes : BitVec 16) (s : State) : Answer :=
  .next (writeBytes (0x34 :: slot :: generation :: bytes2 minutes.toNat) s)

/-- UNSHELVE (R136). -/
def execUnshelve (slot generation : Byte) (s : State) : Answer :=
  .next (writeBytes [0x35, slot, generation] s)

/-- POST CONDITION (R138). -/
def execPostCondition (code severity length : Byte) (data : List Byte) (s : State) : Answer :=
  .next (writeBytes (0x38 :: code :: severity :: length :: data) s)

/-- RETURN CONDITION (R139). -/
def execReturnCondition (code : Byte) (s : State) : Answer :=
  .next (writeBytes [0x39, code] s)

/-- ACKNOWLEDGE ALL (R140). -/
def execAcknowledgeAll (severity cls shelved : Byte) (s : State) : Answer :=
  .next (writeBytes [0x33, severity, cls, shelved] s)

/-- RETIRE DORMANT (R141). -/
def execRetireDormant (s : State) : Answer :=
  .next (writeBytes [0x37] s)

/-- FIND CONDITION (R142). -/
def execFindCondition (cls number kind : Byte) (s : State) : Answer :=
  .next (writeBytes [0x31, cls, number, kind] s)

/-- SILENCE (R147). -/
def execSilence (s : State) : Answer :=
  .next (writeBytes [0x3A] s)

/-- READ CONDITIONS (R162). -/
def execReadConditions (start maximum severity states shelved cls : Byte) (s : State) : Answer :=
  .next (writeBytes [0x30, start, maximum, severity, states, shelved, cls] s)

/-- READ ATTENTION (R168). -/
def execReadAttention (s : State) : Answer :=
  .next (writeBytes [0x60] s)

/-- SET ATTENTION ENABLES (R169). -/
def execSetAttentionEnables (enables : Byte) (s : State) : Answer :=
  .next (writeBytes [0x61, enables] s)

/-- PORT RESET (R170). -/
def execPortReset (s : State) : Answer :=
  .next (writeBytes [0x62] s)

/-- READ SUMMARY (R172). -/
def execReadSummary (s : State) : Answer :=
  .next (writeBytes [0x01] s)

/-- READ LINK (R190). -/
def execReadLink (s : State) : Answer :=
  .next (writeBytes [0x52] s)

/-- LOAD SETTINGS (R193). -/
def execLoadSettings (sec field : Byte) (value : BitVec 32) (s : State) : Answer :=
  .next (writeBytes (0x40 :: sec :: field :: bytes4 value.toNat) s)

/-- READ SETTINGS (R193). -/
def execReadSettings (which sec field : Byte) (s : State) : Answer :=
  .next (writeBytes [0x41, which, sec, field] s)

/-- DISCARD SETTINGS (R193). -/
def execDiscardSettings (s : State) : Answer :=
  .next (writeBytes [0x43] s)

/-- COMMIT SETTINGS (R194). -/
def execCommitSettings (s : State) : Answer :=
  .next (writeBytes [0x42] s)

/-- SET CLOCK (R197). -/
def execSetClock (seconds : BitVec 32) (ticks : Byte) (s : State) : Answer :=
  .next (writeBytes (0x50 :: (bytes4 seconds.toNat ++ [ticks])) s)

/-- READ CLOCK (R197). -/
def execReadClock (s : State) : Answer :=
  .next (writeBytes [0x51] s)

end Sys2Proof.Machine
end

