-- ==== Sys2Proof/Machine/Frames.lean ====
section
/-!
DEFINITION. The town's frames: each command is the arrival event of a whole frame whose check agrees (R174, R183,
assumption 5). Requests.lean and Link.lean hold what each kind does.
-/

namespace Sys2Proof.Machine

/-- TAKE-TALLY (R33, R185). -/
def execTakeTally (tag : Byte) (payload : List Byte) (s : State) : Answer :=
  .next (arrive 0x16 tag payload s)

/-- INHIBIT (R52, R185). -/
def execInhibit (tag : Byte) (payload : List Byte) (s : State) : Answer :=
  .next (arrive 0x17 tag payload s)

/-- DRAWDOWN (R53, R185). -/
def execDrawdown (tag : Byte) (payload : List Byte) (s : State) : Answer :=
  .next (arrive 0x18 tag payload s)

/-- ACKNOWLEDGE from the town (R128, R184). -/
def execTownAcknowledge (tag : Byte) (payload : List Byte) (s : State) : Answer :=
  .next (arrive 0x13 tag payload s)

/-- RETIRE from the town (R130, R184). -/
def execTownRetire (tag : Byte) (payload : List Byte) (s : State) : Answer :=
  .next (arrive 0x14 tag payload s)

/-- LOOK-UP by handle (R122, R184). -/
def execLookUpByHandle (tag : Byte) (payload : List Byte) (s : State) : Answer :=
  .next (arrive 0x10 tag payload s)

/-- LOOK-UP by key (R142, R184). -/
def execLookUpByKey (tag : Byte) (payload : List Byte) (s : State) : Answer :=
  .next (arrive 0x11 tag payload s)

/-- PAGE (R184). -/
def execPage (tag : Byte) (payload : List Byte) (s : State) : Answer :=
  .next (arrive 0x12 tag payload s)

/-- SUMMARY (R185). -/
def execSummary (tag : Byte) (payload : List Byte) (s : State) : Answer :=
  .next (arrive 0x15 tag payload s)

/-- QUIET-ASK (R186). -/
def execQuietAsk (tag : Byte) (payload : List Byte) (s : State) : Answer :=
  .next (arrive 0x19 tag payload s)

/-- A frame of a kind that names no request (R183). -/
def execInvalidRequest (kind tag : Byte) (payload : List Byte) (s : State) : Answer :=
  .next (arrive kind tag payload s)

/-- JOIN-ACCEPT (R178). -/
def execJoinAccept (payload : List Byte) (s : State) : Answer :=
  .next (arrive 0x02 0 payload s)

/-- HEARTBEAT (R179). -/
def execHeartbeat (payload : List Byte) (s : State) : Answer :=
  .next (arrive 0x03 0 payload s)

/-- WAKE (R187). -/
def execWake (payload : List Byte) (s : State) : Answer :=
  .next (arrive 0x04 0 payload s)

end Sys2Proof.Machine
end

