-- ==== Sys2Proof/Machine/Dispatch.lean ====
section
/-!
DEFINITION. The dispatch of a command to its meaning: one arm for each constructor of Instr.
-/

namespace Sys2Proof.Machine

def exec (i : Instr) (s : State) : Host.Outcome State Fault Refusal :=
  match i with
  | .roundComplete samples reference => Sys2Proof.Machine.execRoundComplete samples reference s
  | .periodEnd samples reference => Sys2Proof.Machine.execPeriodEnd samples reference s
  | .floatInputChange float made => Sys2Proof.Machine.execFloatInputChange float made s
  | .floatDebounceExpiry float => Sys2Proof.Machine.execFloatDebounceExpiry float s
  | .separationTimerExpiry weir => Sys2Proof.Machine.execSeparationTimerExpiry weir s
  | .takeTally tag payload => Sys2Proof.Machine.execTakeTally tag payload s
  | .readTallies => Sys2Proof.Machine.execReadTallies s
  | .readChannels => Sys2Proof.Machine.execReadChannels s
  | .selectorLineChange pump line made => Sys2Proof.Machine.execSelectorLineChange pump line made s
  | .selectorDebounceExpiry pump line => Sys2Proof.Machine.execSelectorDebounceExpiry pump line s
  | .startHistoryAgeOut pump => Sys2Proof.Machine.execStartHistoryAgeOut pump s
  | .headBlockedDelayExpiry pump => Sys2Proof.Machine.execHeadBlockedDelayExpiry pump s
  | .setDutyOrder order => Sys2Proof.Machine.execSetDutyOrder order s
  | .inhibitPump pump => Sys2Proof.Machine.execInhibitPump pump s
  | .releasePump pump => Sys2Proof.Machine.execReleasePump pump s
  | .inhibit tag payload => Sys2Proof.Machine.execInhibit tag payload s
  | .drawdown tag payload => Sys2Proof.Machine.execDrawdown tag payload s
  | .drawdownExpiry => Sys2Proof.Machine.execDrawdownExpiry s
  | .runSecondsTick pump => Sys2Proof.Machine.execRunSecondsTick pump s
  | .loadTotals pump runSeconds starts => Sys2Proof.Machine.execLoadTotals pump runSeconds starts s
  | .readPump pump => Sys2Proof.Machine.execReadPump pump s
  | .pumpInputChange pump input value => Sys2Proof.Machine.execPumpInputChange pump input value s
  | .pumpInputDebounceExpiry pump input => Sys2Proof.Machine.execPumpInputDebounceExpiry pump input s
  | .startWindowExpiry pump => Sys2Proof.Machine.execStartWindowExpiry pump s
  | .minRunExpiry pump => Sys2Proof.Machine.execMinRunExpiry pump s
  | .stopWindowExpiry pump => Sys2Proof.Machine.execStopWindowExpiry pump s
  | .runDownExpiry pump => Sys2Proof.Machine.execRunDownExpiry pump s
  | .resetLockout cls number => Sys2Proof.Machine.execResetLockout cls number s
  | .powerLineChange line made => Sys2Proof.Machine.execPowerLineChange line made s
  | .powerLineDebounceExpiry line => Sys2Proof.Machine.execPowerLineDebounceExpiry line s
  | .staggerTimerExpiry => Sys2Proof.Machine.execStaggerTimerExpiry s
  | .rakeInputChange screen input made => Sys2Proof.Machine.execRakeInputChange screen input made s
  | .rakeInputDebounceExpiry screen input => Sys2Proof.Machine.execRakeInputDebounceExpiry screen input s
  | .pulse screen => Sys2Proof.Machine.execPulse screen s
  | .gripDwellExpiry screen => Sys2Proof.Machine.execGripDwellExpiry screen s
  | .dischargeDwellExpiry screen => Sys2Proof.Machine.execDischargeDwellExpiry screen s
  | .rakeCycle screen => Sys2Proof.Machine.execRakeCycle screen s
  | .rakeHome screen => Sys2Proof.Machine.execRakeHome screen s
  | .rakePosition screen position => Sys2Proof.Machine.execRakePosition screen position s
  | .rakeFinish screen count => Sys2Proof.Machine.execRakeFinish screen count s
  | .jamTimerExpiry screen => Sys2Proof.Machine.execJamTimerExpiry screen s
  | .reverseTimerExpiry screen => Sys2Proof.Machine.execReverseTimerExpiry screen s
  | .senseScreen screen => Sys2Proof.Machine.execSenseScreen screen s
  | .readScreen screen => Sys2Proof.Machine.execReadScreen screen s
  | .acknowledge slot generation => Sys2Proof.Machine.execAcknowledge slot generation s
  | .townAcknowledge tag payload => Sys2Proof.Machine.execTownAcknowledge tag payload s
  | .retire slot generation => Sys2Proof.Machine.execRetire slot generation s
  | .townRetire tag payload => Sys2Proof.Machine.execTownRetire tag payload s
  | .shelve slot generation minutes => Sys2Proof.Machine.execShelve slot generation minutes s
  | .unshelve slot generation => Sys2Proof.Machine.execUnshelve slot generation s
  | .shelfTimerExpiry slot => Sys2Proof.Machine.execShelfTimerExpiry slot s
  | .postCondition code severity length data => Sys2Proof.Machine.execPostCondition code severity length data s
  | .returnCondition code => Sys2Proof.Machine.execReturnCondition code s
  | .acknowledgeAll severity cls shelved => Sys2Proof.Machine.execAcknowledgeAll severity cls shelved s
  | .retireDormant => Sys2Proof.Machine.execRetireDormant s
  | .findCondition cls number kind => Sys2Proof.Machine.execFindCondition cls number kind s
  | .silence => Sys2Proof.Machine.execSilence s
  | .flashPhase => Sys2Proof.Machine.execFlashPhase s
  | .statusWrite byte => Sys2Proof.Machine.execStatusWrite byte s
  | .dataRead tc => Sys2Proof.Machine.execDataRead tc s
  | .parameterByte byte => Sys2Proof.Machine.execParameterByte byte s
  | .invalidCommand code => Sys2Proof.Machine.execInvalidCommand code s
  | .readConditions start maximum severity states shelved cls => Sys2Proof.Machine.execReadConditions start maximum severity states shelved cls s
  | .byteWindowExpiry => Sys2Proof.Machine.execByteWindowExpiry s
  | .readAttention => Sys2Proof.Machine.execReadAttention s
  | .setAttentionEnables enables => Sys2Proof.Machine.execSetAttentionEnables enables s
  | .portReset => Sys2Proof.Machine.execPortReset s
  | .resetAssert => Sys2Proof.Machine.execResetAssert s
  | .resetRelease => Sys2Proof.Machine.execResetRelease s
  | .resetTimerExpiry => Sys2Proof.Machine.execResetTimerExpiry s
  | .readSummary => Sys2Proof.Machine.execReadSummary s
  | .frameCheckFail => Sys2Proof.Machine.execFrameCheckFail s
  | .framingError => Sys2Proof.Machine.execFramingError s
  | .interByteTimerExpiry => Sys2Proof.Machine.execInterByteTimerExpiry s
  | .frameSent => Sys2Proof.Machine.execFrameSent s
  | .offerTimerExpiry => Sys2Proof.Machine.execOfferTimerExpiry s
  | .joinAccept payload => Sys2Proof.Machine.execJoinAccept payload s
  | .heartbeat payload => Sys2Proof.Machine.execHeartbeat payload s
  | .heartbeatTimerExpiry => Sys2Proof.Machine.execHeartbeatTimerExpiry s
  | .statusTimerExpiry => Sys2Proof.Machine.execStatusTimerExpiry s
  | .invalidRequest kind tag payload => Sys2Proof.Machine.execInvalidRequest kind tag payload s
  | .lookUpByHandle tag payload => Sys2Proof.Machine.execLookUpByHandle tag payload s
  | .lookUpByKey tag payload => Sys2Proof.Machine.execLookUpByKey tag payload s
  | .page tag payload => Sys2Proof.Machine.execPage tag payload s
  | .summary tag payload => Sys2Proof.Machine.execSummary tag payload s
  | .quietAsk tag payload => Sys2Proof.Machine.execQuietAsk tag payload s
  | .wake payload => Sys2Proof.Machine.execWake payload s
  | .lossTimerExpiry => Sys2Proof.Machine.execLossTimerExpiry s
  | .readLink => Sys2Proof.Machine.execReadLink s
  | .loadSettings sec field value => Sys2Proof.Machine.execLoadSettings sec field value s
  | .readSettings which sec field => Sys2Proof.Machine.execReadSettings which sec field s
  | .discardSettings => Sys2Proof.Machine.execDiscardSettings s
  | .commitSettings => Sys2Proof.Machine.execCommitSettings s
  | .storeWriteReport complete => Sys2Proof.Machine.execStoreWriteReport complete s
  | .storeTimeoutExpiry => Sys2Proof.Machine.execStoreTimeoutExpiry s
  | .clockTick => Sys2Proof.Machine.execClockTick s
  | .setClock seconds ticks => Sys2Proof.Machine.execSetClock seconds ticks s
  | .readClock => Sys2Proof.Machine.execReadClock s
  | .coldStart => Sys2Proof.Machine.execColdStart s
  | .commandCodeWrite byte => Sys2Proof.Machine.execCommandCodeWrite byte s
  | .byteReceived byte => Sys2Proof.Machine.execByteReceived byte s

end Sys2Proof.Machine
end

