-- ==== Sys2Proof/Safety.lean ====
section
/-!
DEFINITION. What a run keeps, in the terms the statements use: the whole-part promises of the manual's rules, and what an
edge, a settling and the end of an event may touch.
-/

namespace Sys2Proof.Machine

/-! Promises of the manual (R49, R98, R133, R121, R181) -/

/-- The duty ladder is a permutation of pumps 1 to 6 (R49). -/
def LadderOk (l : List Ix6) : Prop := l.Perm Ix6.all

/-- At most one of UP and DOWN is energised on each rake (R98). -/
def MotorsExclusive (s : State) : Prop := ∀ n, ¬((s.screen n).up = true ∧ (s.screen n).down = true)

/-- Credits never exceed the grant and are 0 in OFFLINE, JOINING and LOST; at most four requests are outstanding (R181). -/
def CreditsOk (l : Link) : Prop :=
  l.credits ≤ l.grant.getD 0 ∧
    ((l.state = .offline ∨ l.state = .joining ∨ l.state = .lost) → l.credits = 0) ∧ l.requests.length ≤ 4

/-- The table has 48 slots and its waiting list at most 16 entries (R121, R133). -/
def TableOk (t : Table) : Prop := t.slots.length = 48 ∧ t.waiting.length ≤ 16

/-- ATTN stands as its flags and enables form it (R169). -/
def AttnOk (p : Port) : Prop := p.attn = (p.flags.meet p.enables).some?

/-! What an edge offered to the Condition Table may touch -/

/-- Whether a flag is set. -/
def Attention.has (a : Attention) : Flag → Bool
  | .condition => a.condition
  | .screen => a.screen
  | .power => a.power
  | .link => a.link
  | .settings => a.settings
  | .balance => a.balance

/-- Every flag set in the first is set in the second. -/
def Attention.within (a b : Attention) : Prop := ∀ f, a.has f = true → b.has f = true

/-- What neither an edge nor a settling touches, and how far they touch the local outputs, the port, the link and the
table: the silence, the attention flags and ATTN, a wake of a QUIET link, the records and the waiting list. -/
structure CommonFrame (s t : State) : Prop where
  clock : t.clock = s.clock
  level : t.level = s.level
  balance : t.balance = s.balance
  store : t.store = s.store
  shown : t.shown = s.shown
  pending : t.pending = s.pending
  ann : t.ann = { s.ann with silence := t.ann.silence }
  port : t.port = { s.port with flags := t.port.flags, attn := t.port.attn }
  flags : s.port.flags.within t.port.flags
  attn : AttnOk s.port → AttnOk t.port
  link : t.link = { s.link with
    state := t.link.state, heartbeatTimer := t.link.heartbeatTimer, statusOwed := t.link.statusOwed
    statusTimer := t.link.statusTimer, wakesOwed := t.link.wakesOwed }
  wakes : t.link.state = s.link.state ∨ (s.link.state = .quiet ∧ t.link.state = .online)
  still : t.link.state = s.link.state → t.link = s.link
  woke : t.link.state ≠ s.link.state →
    t.link.heartbeatTimer = seconds (3 * s.link.period.getD 0) ∧ t.link.statusTimer = seconds (s.link.period.getD 0)
  slots : t.table.slots.length = s.table.slots.length
  waiting : t.table.waiting.length ≤ max 16 s.table.waiting.length

/-- What an edge may touch: nothing of the plant. -/
structure EdgeFrame (s t : State) : Prop extends CommonFrame s t where
  pumps : t.pumps = s.pumps
  duty : t.duty = s.duty
  power : t.power = s.power
  screens : t.screens = s.screens

/-! What the Sequencer, the Rake Controller and the Allocator may touch as they settle an event -/

/-- The first pump with the parts of the second that calls, grants and sheds move. -/
def Pump.settled (q r : Pump) : Pump :=
  { q with
    seq := r.seq, contactor := r.contactor, claim := r.claim, startWindow := r.startWindow, minRun := r.minRun
    stopWindow := r.stopWindow, stopDone := r.stopDone, runDown := r.runDown, headTimer := r.headTimer
    history := r.history, starts := r.starts, startsLimited := r.startsLimited, called := r.called
    shedMark := r.shedMark }

/-- The first screen with the parts of the second that grants and sheds move. -/
def Screen.settled (a b : Screen) : Screen :=
  { a with
    rake := b.rake, homed := b.homed, position := b.position, op := b.op, saved := b.saved, leg := b.leg
    upCount := b.upCount, legLimit := b.legLimit, retries := b.retries, cycles := b.cycles, pending := b.pending
    completion := b.completion, jamTimer := b.jamTimer, dwell := b.dwell, reverse := b.reverse, claim := b.claim
    shedMark := b.shedMark, up := b.up, down := b.down, grip := b.grip, untested := b.untested }

/-- UP and DOWN of a screen are not both energised. -/
def Screen.exclusive (a : Screen) : Prop := ¬(a.up = true ∧ a.down = true)

/-- What a settling may touch. -/
structure PlantFrame (s t : State) : Prop extends CommonFrame s t where
  duty : t.duty = { s.duty with ladder := t.duty.ladder }
  ladder : LadderOk s.duty.ladder → LadderOk t.duty.ladder
  power : t.power = { s.power with ack := t.power.ack, queue := t.power.queue, stagger := t.power.stagger }
  pumps : ∀ p, t.pump p = (s.pump p).settled (t.pump p)
  screens : ∀ n, t.screen n = (s.screen n).settled (t.screen n)
  motors : ∀ n, (s.screen n).exclusive → (t.screen n).exclusive

/-! What the end of an event may touch -/

/-- The end of an event: a settling, the local outputs formed again, and what a free transmitter takes. -/
structure ConcludeFrame (s t : State) : Prop where
  clock : t.clock = s.clock
  level : t.level = s.level
  balance : t.balance = s.balance
  store : t.store = s.store
  shown : t.shown = s.shown
  pending : t.pending = s.pending
  duty : t.duty = { s.duty with ladder := t.duty.ladder }
  ladder : LadderOk s.duty.ladder → LadderOk t.duty.ladder
  power : t.power = { s.power with ack := t.power.ack, queue := t.power.queue, stagger := t.power.stagger }
  pumps : ∀ p, t.pump p = (s.pump p).settled (t.pump p)
  screens : ∀ n, t.screen n = (s.screen n).settled (t.screen n)
  motors : ∀ n, (s.screen n).exclusive → (t.screen n).exclusive
  flash : t.ann.flashOn = s.ann.flashOn
  port : t.port = { s.port with flags := t.port.flags, attn := t.port.attn }
  flags : s.port.flags.within t.port.flags
  attn : AttnOk s.port → AttnOk t.port
  link : t.link = { s.link with
    state := t.link.state, heartbeatTimer := t.link.heartbeatTimer, statusOwed := t.link.statusOwed
    statusTimer := t.link.statusTimer, wakesOwed := t.link.wakesOwed, offersOwed := t.link.offersOwed
    sending := t.link.sending, requests := t.link.requests, credits := t.link.credits }
  wakes : t.link.state = s.link.state ∨ (s.link.state = .quiet ∧ t.link.state = .online)
  still : t.link.state = s.link.state →
    t.link.heartbeatTimer = s.link.heartbeatTimer ∧ t.link.statusTimer = s.link.statusTimer
  woke : t.link.state ≠ s.link.state →
    t.link.heartbeatTimer = seconds (3 * s.link.period.getD 0) ∧ t.link.statusTimer = seconds (s.link.period.getD 0)
  credits : t.link.credits ≤ s.link.credits
  requests : t.link.requests.map (fun r => (r.tag, r.response)) = s.link.requests.map (fun r => (r.tag, r.response))
  busy : s.link.sending.isSome →
    t.link.sending = s.link.sending ∧ t.link.credits = s.link.credits ∧ t.link.requests = s.link.requests
  slots : t.table.slots.length = s.table.slots.length
  waiting : t.table.waiting.length ≤ max 16 s.table.waiting.length

/-! The two exchanges, in the terms the statements use -/

/-- The panel port is IDLE and RESET# is released: it takes a command code. -/
def State.portIdle (s : State) : Prop := s.port.phase = .idle ∧ s.port.resetLine = false

/-- The state in which a panel command executes once its code and parameters have been taken (R156). -/
def State.taken (code : Byte) (ps : List Byte) (s : State) : State :=
  s.onPort fun p => { p with
    protocol := false, phase := if ps = [] then p.phase else .parameters code ps.dropLast }

/-- The port has taken a command that touches nothing but the port, and offers its result. -/
def State.answered (bs : List Byte) (s : State) : State :=
  s.onPort fun p => { p with protocol := false, phase := .result bs }

/-- The town's frame is admitted as a request (R183): the link is joined, a request slot is free, and the tag is not
outstanding. -/
structure Admits (tag : Byte) (s : State) : Prop where
  joined : s.link.state = .online ∨ s.link.state = .quiet
  room : s.link.requests.length < 4
  fresh : ∀ r ∈ s.link.requests, r.tag ≠ tag

/-- The state in which an admitted request is taken: the receiver hunts again, and a QUIET link is awake (R174, R183,
R187). -/
def State.woken (s : State) : State := wakeLink false (hunt s)

/-- The response of a request is owed. -/
def State.responded (kind tag : Byte) (bs : List Byte) (s : State) : State :=
  s.onLink fun l => { l with requests := l.requests ++ [⟨tag, kind :: bs, false⟩] }

/-- A debounced line after its line goes to a value (R8, R38, R60, R81, R96). -/
def lineAfter (v : Bool) (ticks : Nat) (d : Debounced) : Debounced :=
  if d.line = v then d
  else if d.state = v then ⟨v, d.state, none⟩ else ⟨v, d.state, some ticks⟩

/-- A debounced line after its timer has expired. -/
def lineTaken (d : Debounced) : Debounced := ⟨d.line, d.line, none⟩

/-- The sum of the claims never exceeds what the power allows (R83). -/
def PowerOk (s : State) : Prop := LadderOk s.duty.ladder ∧ 0 ≤ free s

/-! The claim queue and what waits in it (R67, R85, R98 to R100, R110) -/

/-- The stages of an operation in which a rake holds its claim (R100). -/
def RakeState.claimed : RakeState → Bool
  | .homing | .descending | .gripping | .ascending | .discharging | .reversing | .positioning => true
  | .unhomed | .idle | .waiting | .held | .paused | .locked => false

/-- The stages in which a motor is driven (R98). -/
def RakeState.driven : RakeState → Bool
  | .homing | .descending | .ascending | .reversing | .positioning => true
  | .unhomed | .idle | .waiting | .gripping | .discharging | .held | .paused | .locked => false

/-- The claim queue holds each claimant at most once, a pump exactly while it is QUEUED and a rake exactly while it is
WAITING or PAUSED (R85), with what the Sequencer and the Rake Controller promise of those states beside it. -/
structure QueueOk (s : State) : Prop where
  once : s.power.queue.Nodup
  pumps : ∀ p, .pump p ∈ s.power.queue ↔ (s.pump p).seq = .queued
  rakes : ∀ n, .rake n ∈ s.power.queue ↔ (s.screen n).rake = .waiting ∨ (s.screen n).rake = .paused
  /-- A pump that is queued or on duty has its selector in AUTO (R67). -/
  auto : ∀ p, (s.pump p).seq = .queued ∨ (s.pump p).seq = .starting ∨ (s.pump p).seq = .running →
    (s.pump p).selector = .auto
  pumpClaims : ∀ p, (s.pump p).claim ≠ none → (s.pump p).seq = .starting ∨ (s.pump p).seq = .running
  rakeClaims : ∀ n, (s.screen n).claim ≠ none → (s.screen n).rake.claimed = true
  operations : ∀ n, (s.screen n).rake = .waiting ∨ (s.screen n).rake = .paused ∨ (s.screen n).rake.claimed = true →
    (s.screen n).op ≠ .none
  saved : ∀ n, (s.screen n).rake = .paused → ∃ st, (s.screen n).saved = some st ∧ st.claimed = true
  motors : ∀ n, (s.screen n).up = true ∨ (s.screen n).down = true ∨ (s.screen n).jamTimer ≠ none →
    (s.screen n).rake.driven = true

end Sys2Proof.Machine
end

