-- ==== Sys2Proof/Certificates/Slice0/Obligations.lean ====
section
/-!
DEFINITION. The statements for the provers. Where one says that a command answers `next (conclude u)`, u holds the
command's own effect, and ConcludeFrame (O8) says what the end of the event may still touch.
-/

open Sys2Proof Sys2Proof.Machine

/-! The queue, the reset and the promises every step keeps -/

/-- The command at the front of the queue runs on the state with the queue's rest (section 4.8: events are taken one
after another); on an empty queue the part idles, which is the model's choice (assumption 1). -/
def Obligations.StepRunsFrontCommand : Prop :=
  (∀ (s : State) (i : Instr) (rest : List Instr), s.pending = i :: rest →
    step s = exec i { s with pending := rest }) ∧
  ∀ s : State, s.pending = [] → step s = .next s

/-- State.reset is a state right after a cold start: another cold start leaves it as it is (R198, R199; the lines and the
store of assumptions 9 and 10).

The reset state keeps every promise that the step statements carry on. -/
def Obligations.ResetIsAColdStart : Prop :=
  (exec .coldStart State.reset = .next State.reset) ∧
  (LadderOk State.reset.duty.ladder ∧ MotorsExclusive State.reset ∧ TableOk State.reset.table ∧
     AttnOk State.reset.port ∧ CreditsOk State.reset.link ∧ PowerOk State.reset)

/-- The duty ladder is always a permutation of pumps 1 to 6 (R49): every step keeps it so.

The sum of the claims never exceeds the budget less the external load, taken as 0 if negative (R83, R86, R88): every
step from a state where free is 0 or more ends in one. The ladder's promise goes along, since claims are shed in its
order. -/
def Obligations.StepKeepsLadderAndClaims : Prop :=
  (∀ s t : State, LadderOk s.duty.ladder → step s = .next t → LadderOk t.duty.ladder) ∧
  (∀ s t : State, PowerOk s → step s = .next t → PowerOk t)

/-- At most one of a rake's UP and DOWN is energised at a time (R98): every step keeps it so. -/
def Obligations.StepKeepsMotorsExclusive : Prop :=
  ∀ s t : State, MotorsExclusive s → step s = .next t → MotorsExclusive t

/-- The table has 48 slots (R121) and the waiting list at most 16 entries (R133): every step keeps it so. -/
def Obligations.StepKeepsTableSizes : Prop :=
  ∀ s t : State, TableOk s.table → step s = .next t → TableOk t.table

/-- ATTN is asserted exactly while a flag is set with its enable on (R169): every step keeps it so. -/
def Obligations.StepKeepsAttnFormed : Prop :=
  ∀ s t : State, AttnOk s.port → step s = .next t → AttnOk t.port

/-- Credits never exceed the grant and are 0 in OFFLINE, JOINING and LOST, and at most four requests are outstanding
(R181, R183): every step keeps it so. -/
def Obligations.StepKeepsCreditsBounded : Prop :=
  ∀ s t : State, CreditsOk s.link → step s = .next t → CreditsOk t.link

/-- What the end of an event may touch: nothing of the clock, the levels, the balance, the settings or the queue; of the
plant only what calls, grants and sheds move; of the link only what a wake and a free transmitter move; no attention flag
is cleared. -/
def Obligations.EndOfEventFrame : Prop := ∀ s : State, ConcludeFrame s (conclude s)

/-- At the end of an event free is 0 or more, whatever stood before it (R83, R88), for a ladder that names every pump.

At the end of an event the horn, the beacon and the common-fault relay stand as the seated records form them (R146,
R148, R149), the silence state lasts only while the horn demand is present (R147), and each of the sixteen lamps shows its
assignment's aspect (R150, R151): a selector's and a posted code's FLASH while an unshelved record it matches is not
acknowledged, else STEADY while one is ACKED, else OFF; a pump's run feedback; nothing for an unused lamp.

At the end of an event a table that is still saturated has no general slot that is vacant or holds a DORMANT record
(R132), and with the transferring mark set, no claim held and no pump within its stop window, TRANSFER-ACK is raised (R91);
only so is it newly raised, with the POWER flag (R93). -/
def Obligations.EndOfEventShedsAndForms : Prop :=
  (∀ s : State, LadderOk s.duty.ladder → 0 ≤ free (conclude s)) ∧
  (∀ s : State, let t := conclude s
     let counts := fun (p : Record → Prop) => ∃ sl ∈ t.table.slots, ∃ r, sl.record = some r ∧ r.shelved = false ∧ p r
     (t.ann.beacon = true ↔ counts fun r => r.severity = .critical ∧ r.state ≠ .dormant) ∧
     (t.ann.relay = true ↔ t.level.anyPeriodEnd = true ∧
       ¬counts fun r => (r.severity = .major ∨ r.severity = .critical) ∧ r.state ≠ .dormant) ∧
     (t.ann.horn = true ↔ t.ann.silence = false ∧
       counts fun r => t.running.hornThreshold ≤ r.severity.code ∧ (r.state = .raised ∨ r.state = .returned)) ∧
     (t.ann.silence = true →
       counts fun r => t.running.hornThreshold ≤ r.severity.code ∧ (r.state = .raised ∨ r.state = .returned)) ∧
     t.ann.lamps.length = 16 ∧
     (∀ i, i < 16 → let v := t.running.lamp (i + 1)
       let shows := fun (m : Record → Prop) =>
         t.ann.lamps[i]? = some .flash ∧ (counts fun r => m r ∧ (r.state = .raised ∨ r.state = .returned)) ∨
         t.ann.lamps[i]? = some .steady ∧ (counts fun r => m r ∧ r.state = .acked) ∧
           (¬counts fun r => m r ∧ (r.state = .raised ∨ r.state = .returned)) ∨
         t.ann.lamps[i]? = some .off ∧ ¬counts fun r => m r ∧ r.state ≠ .dormant
       (lampType v = 0 → t.ann.lamps[i]? = some .off) ∧
       (lampType v = 1 → shows fun r => r.key.kind.cls.code = lampClass v ∧ r.key.kind.code = lampKind v ∧
         (lampNumber v = 0 ∨ r.key.number = lampNumber v)) ∧
       (lampType v = 2 → ∀ p : Ix6, p.num = lampNumber v →
         t.ann.lamps[i]? = some (if (t.pump p).feedback.state then .steady else .off)) ∧
       (lampType v = 3 → shows fun r => r.key = ⟨.panelPosted, lampNumber v⟩)) ∧
     (t.table.saturated = true → ∀ i, 1 ≤ i → i ≤ 47 →
       ∃ r, (t.table.slot i).record = some r ∧ r.state ≠ .dormant) ∧
     (let rest := t.power.transferring = true ∧ claimSum t = 0 ∧
        ∀ p, ¬((t.pump p).seq = .stopping ∧ (t.pump p).stopWindow ≠ none)
      (rest → t.power.ack = true) ∧
      (t.power.ack = true → s.power.ack = true ∨ (rest ∧ t.port.flags.power = true))))

/-- Uptime is never set (R197, section 4.3): only a tick and a cold start, at power-on or at the RESET# timer, move it.

The store image is replaced only at a store write's successful end (R196): no other command moves it or its
checksum. -/
def Obligations.UptimeAndStoreImageMove : Prop :=
  (∀ (i : Instr) (s t : State), exec i s = .next t → i ≠ .clockTick → i ≠ .coldStart → i ≠ .resetTimerExpiry →
     t.clock.uptime = s.clock.uptime) ∧
  (∀ (i : Instr) (s t : State), exec i s = .next t → i ≠ .storeWriteReport true →
     t.store.image = s.store.image ∧ t.store.checksumGood = s.store.checksumGood)

/-! Time and cold start -/

/-- One tick (R197): both clocks advance by 10 ms with their carry and their wrap, every timer that runs and has time left
loses one tick, and a pump with run feedback present gains a run tick (R55). Nothing else moves. That a timer at 0 stays at
0, and that the tick takes no expiry, is the model's choice (assumption 3); so is that the run ticks go on above 100 until
their own command takes a hundred of them (assumption 7). -/
def Obligations.ClockTick : Prop :=
  ∀ s : State, ∃ t, exec .clockTick s = .next t ∧
    (∀ a b : Stamp, (a = s.clock.uptime ∧ b = t.clock.uptime ∨ a = s.clock.station ∧ b = t.clock.station) →
      b = if a.ticks < 99 then ⟨a.secs, a.ticks + 1⟩ else if a.secs < 4294967295 then ⟨a.secs + 1, 0⟩ else ⟨0, 0⟩) ∧
    t.clock.set = s.clock.set ∧
    (let less := fun x : Timer => x.map (· - 1)
     let line := fun d : Debounced => { d with timer := less d.timer }
     t.level = { s.level with
        low := line s.level.low, high := line s.level.high, highHigh := line s.level.highHigh
        roundTimer := less s.level.roundTimer } ∧
      (∀ w, t.balance.weirs.get w =
        { s.balance.weirs.get w with separation := less (s.balance.weirs.get w).separation }) ∧
      t.balance = { s.balance with weirs := t.balance.weirs } ∧
      (∀ p, let q := s.pump p
        t.pump p = { q with
          hand := line q.hand, auto := line q.auto, feedback := line q.feedback, thermal := line q.thermal
          sealProbe := line q.sealProbe, startWindow := less q.startWindow, minRun := less q.minRun
          stopWindow := less q.stopWindow, runDown := less q.runDown, headTimer := less q.headTimer
          runTicks := q.runTicks + if q.feedback.state then 1 else 0 }) ∧
      t.duty = { s.duty with drawdownTimer := less s.duty.drawdownTimer } ∧
      t.power = { s.power with
        mainsOk := line s.power.mainsOk, genOn := line s.power.genOn, transferReq := line s.power.transferReq
        stagger := less s.power.stagger } ∧
      (∀ n, let q := s.screen n
        t.screen n = { q with
          home := line q.home, bottom := line q.bottom, overload := line q.overload, jamTimer := less q.jamTimer
          dwell := less q.dwell, reverse := less q.reverse }) ∧
      (∀ i, t.table.slot i = { s.table.slot i with
        record := (s.table.slot i).record.map fun r => { r with shelf := less r.shelf } }) ∧
      t.table = { s.table with slots := t.table.slots } ∧
      t.ann = s.ann ∧
      t.port = { s.port with window := less s.port.window, resetTimer := less s.port.resetTimer } ∧
      t.link = { s.link with
        interByte := less s.link.interByte, heartbeatTimer := less s.link.heartbeatTimer
        statusTimer := less s.link.statusTimer, offerTimer := less s.link.offerTimer
        lossTimer := less s.link.lossTimer } ∧
      t.store = { s.store with writing := less s.store.writing } ∧
      t.shown = s.shown ∧ t.pending = s.pending)

/-- A cold start (R17, R37, R59, R80, R95, R119, R145, R153, R173, R192, R197 to R199): every block takes its cold-start
values. The set loaded is the stored one only if its checksum is good and every check passes. The input lines, the port's
RESET# line and the store image stand as they were. Every selector, input and power line is read without debounce; the
ladder is pumps 1 to 6 in order; a pump in AUTO with its run feedback present is RUN-ON; a request made is acknowledged at
once; a rake with its overload made is LOCKED, any other waits in the queue to home, screen 1 before screen 2. Each cause
found present is seated from slot 1 up, once, at uptime zero; the link goes to JOINING with one offer owed where it is
enabled, and the offer is sent at the same event.

The RESET# timer's expiry is a cold start (R171). The order of the raises is the model's choice (assumption 30), a weir's
head and root of 0 and the stop window's outcome are too (assumption 33), and what the summary shows before the first period
end (assumption 32), the order in which a stored set's checks name the first that failed (assumption 26), that the entry to
JOINING sets no LINK flag here and counts its offer (assumption 23), and that a source other than MAINS sets no POWER flag
(assumption 42). -/
def Obligations.ColdStartValues : Prop :=
  (∀ s : State, ∃ u t, exec .coldStart s = .next t ∧ t = conclude u ∧
    let read := fun d : Debounced => (⟨d.line, d.line, none⟩ : Debounced)
    let open_ := fun d : Debounced => (⟨d.line, false, if d.line then some 200 else none⟩ : Debounced)
    let good := s.store.checksumGood && s.store.image.firstFault?.isNone
    let c := if good then s.store.image else Settings.factory
    u.clock = ⟨⟨0, 0⟩, ⟨0, 0⟩, false⟩ ∧
    u.store = ⟨c, c, s.store.image, s.store.checksumGood, none, !good, false⟩ ∧
    (let silent := fun n => (⟨0, .none, 0, 0, .none, none, 0, 0, false, c.offset n, c.span n⟩ : Channel)
     u.level =
       { channels := ⟨silent .i1, silent .i2, silent .i3, silent .i4, silent .i5, silent .i6⟩
         refRaw := 0, refSample := .none, discarded := 0, good := 0, roundTimer := some 10, rounds := 0
         periodSecs := c.balancePeriod, anyPeriodEnd := false
         low := open_ s.level.low, high := open_ s.level.high, highHigh := open_ s.level.highHigh
         wellLevel := none, mode := .float, acquisitionFault := false, wellDisagree := false, floatMode := false
         highLevel := false, hhFloatPart := false, hhLevelPart := false, highHighCause := false }) ∧
    u.balance = ⟨none, none, false, 0, true, 0, true, .dry, 0, Two.const ⟨0, 0, 0, .notComputed, .dry, none, ⟨0, 0, 0, 0, false⟩⟩⟩ ∧
    u.duty = ⟨[.i1, .i2, .i3, .i4, .i5, .i6], Six.const false, 0, 0, none⟩ ∧
    (let sel := fun p => let q := s.pump p
       if q.hand.line ∧ ¬q.auto.line then Selector.hand else if q.auto.line ∧ ¬q.hand.line then .auto else .off
     let seq := fun p => match sel p with
       | .off => Seq.off
       | .hand => .hand
       | .auto => if (s.pump p).feedback.line then .runOn else .idle
     let cause := fun (k : Kind) (n : Nat) (present : Bool) (x : List Byte) =>
       if present then [(k, n, x)] else []
     let source : Source := if s.power.mainsOk.line then .mains else if s.power.genOn.line then .generator else .none
     let lines := byte (bits [s.power.mainsOk.line, s.power.genOn.line, s.power.transferReq.line])
     let causes :=
       ([Ix6.i1, .i2, .i3, .i4, .i5, .i6].map fun p =>
         cause .pumpFailStop p.num (seq p = .runOn) [4] ++
         cause .pumpThermal p.num (s.pump p).thermal.line [byte (seq p).code] ++
         cause .pumpSeal p.num (s.pump p).sealProbe.line []).flatten ++
       cause .mainsFail 0 (source ≠ .mains) [lines] ++ cause .noPower 0 (source = .none) [lines] ++
       cause .rakeOverload 1 (s.screen .i1).overload.line [0] ++ cause .rakeOverload 2 (s.screen .i2).overload.line [0] ++
       cause .settingsFault 0 (!good) (if s.store.checksumGood then
         (match s.store.image.firstFault? with | some f => [byte f.1, byte f.2] | none => []) else [0, 0])
     (∀ p, let q := s.pump p
       u.pump p =
         { hand := read q.hand, auto := read q.auto, selector := sel p, seq := seq p, contactor := false
           locks := ⟨q.thermal.line, false, false, false, false⟩, acks := ⟨false, false, false⟩
           feedback := read q.feedback, thermal := read q.thermal, sealProbe := read q.sealProbe
           startWindow := none, minRun := none, stopWindow := none, stopDone := false, runDown := none, claim := none
           runningSince := ⟨0, 0⟩, headLimited := false, headBlocked := false, headTimer := none, history := []
           startsLimited := false, runSeconds := 0, starts := 0, runTicks := 0, flow := 0, called := false
           panelMark := false, townMark := false, shedMark := false }) ∧
     u.power =
       { mainsOk := read s.power.mainsOk, genOn := read s.power.genOn, transferReq := read s.power.transferReq
         source := source, transferring := s.power.transferReq.line, ack := s.power.transferReq.line
         queue := (if (s.screen .i1).overload.line then [] else [.rake .i1]) ++
           (if (s.screen .i2).overload.line then [] else [.rake .i2])
         stagger := none } ∧
     (∀ n, let q := s.screen n
       let locked := q.overload.line
       u.screen n =
         { home := read q.home, bottom := read q.bottom, overload := read q.overload, differential := 0
           diffStale := true, blocked := false, rake := if locked then .locked else .waiting, homed := false
           position := 0, op := if locked then .none else .home true, saved := none, leg := .down, upCount := 0
           legLimit := 0, interrupted := .down, retries := 0, cycles := 0, pending := false
           locks := ⟨false, locked, false⟩, acks := ⟨false, false, false⟩
           completion := if locked then some ⟨false, 0, .overload, 0, 0, ⟨0, 0⟩⟩ else none
           lastCycleEnd := 0, jamTimer := none, dwell := none, reverse := none, claim := none, shedMark := false
           up := false, down := false, grip := false, untested := false }) ∧
     (let seated := causes.mapIdx fun i x => (⟨1, some
        { key := ⟨x.1, x.2.1⟩, severity := x.1.severity, state := .raised, shelved := false, shelf := none
          ackBy := .nobody, raiseCount := 1, firstRaised := ⟨0, 0⟩, lastChange := ⟨0, 0⟩, changeOrder := i + 1
          extra := x.2.2, townCurrent := false }, none⟩ : Slot)
      u.table =
        { slots := [⟨0, none, none⟩] ++ seated ++ List.replicate (47 - causes.length) ⟨0, none, none⟩
          waiting := [], raisedSinceClear := causes.length, lastClear := ⟨0, 0⟩, changeOrder := causes.length
          saturated := false, suppressed := ⟨0, 0, 0, 0⟩ }) ∧
     u.ann = ⟨false, false, false, false, List.replicate 16 .off, true⟩ ∧
     (let overload := (s.screen .i1).overload.line || (s.screen .i2).overload.line
      u.port = ⟨.idle, false, none, ⟨!causes.isEmpty, overload, s.power.transferReq.line, false, false, false⟩,
        ⟨false, false, false, false, false, false⟩, false, 0, s.port.resetLine, none⟩)) ∧
    (let on := c.linkEnable
     u.link =
       { state := if on then .joining else .offline, baud := c.linkBaud, assembly := none, interByte := none
         sending := none, offersOwed := if on then 1 else 0, wakesOwed := 0, statusOwed := false, requests := []
         grant := none, period := none, credits := 0, heartbeatTimer := none, statusTimer := none
         offerTimer := if on then some 500 else none, lossTimer := none, badFrames := 0, protocolAck := false
         lostCause := false, protocolCause := false } ∧
     t.link = { u.link with
       offersOwed := 0
       sending := if on then some ⟨1, 0, bytes2 c.stationId ++ [0, 0, 0, 0, 48, 4]⟩ else none }) ∧
    u.shown = ⟨false, false, false, Two.const .dry, 0, [.i1, .i2, .i3, .i4, .i5, .i6], Six.const false,
      c.rotationFixed, false, 0, 0⟩ ∧
    u.pending = s.pending ∧
    t.duty = u.duty ∧ t.pumps = u.pumps ∧ t.table = u.table ∧ t.ann.silence = false ∧ t.ann.relay = false ∧
    t.port.attn = false) ∧
  (∀ s : State, s.port.resetLine = true → s.port.resetTimer = some 0 →
    ∃ t, exec .resetTimerExpiry s = .next t ∧ exec .coldStart s = .next t)

/-! Lines -/

/-- A line change (R8, R38, R60, R81, R96): a line that comes to differ from its debounced state starts the debounce timer,
2 s for a float, 1 s for a selector line, 0.5 s for a pump input or a power line and 50 ms for a rake input; one that
comes back cancels it; the debounced state stands. Nothing else moves.

At a debounce expiry the debounced state takes the line's state, for every kind of line (R8, R38, R60, R81, R96); the
settings, the balance and the clock stand. -/
def Obligations.DebouncedLines : Prop :=
  (∀ (s : State) (v : Bool),
     (∀ f, exec (.floatInputChange f v) s = .next (s.onLevel (Level.onFloat f (lineAfter v 200)))) ∧
     (∀ p l, exec (.selectorLineChange p l v) s = .next (s.onPump p (Pump.onLine l (lineAfter v 100)))) ∧
     (∀ p i, exec (.pumpInputChange p i v) s = .next (s.onPump p (Pump.onInput i (lineAfter v 50)))) ∧
     (∀ l, exec (.powerLineChange l v) s = .next (s.onPower (Power.onLine l (lineAfter v 50)))) ∧
     (∀ n i, exec (.rakeInputChange n i v) s = .next (s.onScreen n (Screen.onInput i (lineAfter v 5))))) ∧
  (∀ s : State,
     (∀ f, (s.level.float f).timer = some 0 → ∃ t, exec (.floatDebounceExpiry f) s = .next t ∧
       t.level.float f = lineTaken (s.level.float f) ∧ t.store = s.store ∧ t.balance = s.balance ∧ t.clock = s.clock) ∧
     (∀ p l, ((s.pump p).line l).timer = some 0 → ∃ t, exec (.selectorDebounceExpiry p l) s = .next t ∧
       (t.pump p).line l = lineTaken ((s.pump p).line l) ∧ t.store = s.store ∧ t.balance = s.balance ∧
       t.clock = s.clock) ∧
     (∀ p i, ((s.pump p).input i).timer = some 0 → ∃ t, exec (.pumpInputDebounceExpiry p i) s = .next t ∧
       (t.pump p).input i = lineTaken ((s.pump p).input i) ∧ t.store = s.store ∧ t.balance = s.balance ∧
       t.clock = s.clock) ∧
     (∀ l, (s.power.line l).timer = some 0 → ∃ t, exec (.powerLineDebounceExpiry l) s = .next t ∧
       t.power.line l = lineTaken (s.power.line l) ∧ t.store = s.store ∧ t.balance = s.balance ∧ t.clock = s.clock) ∧
     (∀ n i, ((s.screen n).input i).timer = some 0 → ∃ t, exec (.rakeInputDebounceExpiry n i) s = .next t ∧
       (t.screen n).input i = lineTaken ((s.screen n).input i) ∧ t.store = s.store ∧ t.balance = s.balance ∧
       t.clock = s.clock))

/-! Level Acquisition -/

/-- A good round that is not the last of its period (R1, R2, R4): each external sample is judged by its range, a valid one
adds its scaled level and an under-range one the offset; the counts of good and discarded rounds move by R3, and the tenth
good round running, where ACQUISITION-FAULT is present, returns it.

A round whose REFERENCE is out of its band (R2, R3): every channel is DISCARDED, nothing is accumulated, and the third
discarded round running, where ACQUISITION-FAULT is absent, raises it with that REFERENCE sample. -/
def Obligations.RoundsAccumulate : Prop :=
  (∀ (s : State) (v : Six (BitVec 12)) (r : BitVec 12), s.level.roundTimer = some 0 →
     s.level.rounds + 1 < 10 * s.level.periodSecs → 2007 ≤ r.toNat → r.toNat ≤ 2089 →
     ∃ t, exec (.roundComplete v r) s = .next t ∧
       (∀ n, let c := s.level.channels.get n
         let x := (v.get n).toNat
         t.level.channels.get n = { c with
           raw := x
           sample := if x ≤ 654 then .broken else if x ≤ 818 then .under else if x ≤ 4079 then .valid else .over
           sum := c.sum +
             if 819 ≤ x ∧ x ≤ 4079 then min 16000 (c.offset + (x - 819) * c.span / 3276)
             else if 655 ≤ x ∧ x ≤ 818 then c.offset else 0
           count := c.count + if 655 ≤ x ∧ x ≤ 4079 then 1 else 0 }) ∧
       t.level = { s.level with
         channels := t.level.channels, refRaw := r.toNat, refSample := .valid, discarded := 0
         good := min 255 (s.level.good + 1), roundTimer := some 10, rounds := s.level.rounds + 1
         acquisitionFault := s.level.acquisitionFault && decide (min 255 (s.level.good + 1) < 10) } ∧
       t.balance = s.balance ∧ t.store = s.store ∧ t.clock = s.clock ∧
       (let u : State := { s with level := t.level }
        t = conclude (if s.level.acquisitionFault = true ∧ 10 ≤ s.level.good + 1
          then returnKey ⟨.acquisitionFault, 0⟩ u else u))) ∧
  (∀ (s : State) (v : Six (BitVec 12)) (r : BitVec 12), s.level.roundTimer = some 0 →
     s.level.rounds + 1 < 10 * s.level.periodSecs → (r.toNat < 2007 ∨ 2089 < r.toNat) →
     ∃ t, exec (.roundComplete v r) s = .next t ∧
       (∀ n, t.level.channels.get n =
         { s.level.channels.get n with raw := (v.get n).toNat, sample := .discarded }) ∧
       t.level = { s.level with
         channels := t.level.channels, refRaw := r.toNat, refSample := .discarded, good := 0
         discarded := min 255 (s.level.discarded + 1), roundTimer := some 10, rounds := s.level.rounds + 1
         acquisitionFault := s.level.acquisitionFault || decide (3 ≤ min 255 (s.level.discarded + 1)) } ∧
       t.balance = s.balance ∧ t.store = s.store ∧ t.clock = s.clock ∧
       (let u : State := { s with level := t.level }
        t = conclude (if s.level.acquisitionFault = false ∧ 3 ≤ s.level.discarded + 1
          then raise ⟨.acquisitionFault, 0⟩ .critical (bytes2 r.toNat) u else u)))

/-- The last round of a period is its period end (R5): the period values are formed from the counts and sums with the
round's own samples in them (R6), the validity counts and the cause of SENSOR-FAULT move (R7), the well level is the mean of
two valid transmitters that agree, else the higher, else the one that is valid (R9), WELL-DISAGREE follows the pair (R10),
the mode and FLOAT-MODE follow the well level (R11), HIGH-LEVEL and HIGH-HIGH follow it where it is valid (R12, R13), and the
next period begins empty with the settings now in force (R5, R15). Each cause that moves offers its edge.

The station computation's values after the event are those of its stages, taken in order on the new levels (R14, R18). The
parts of the period end stand in the order given: the level edges, the balance, the delays, marks and screens, their edges,
the count wanted, the called set with its grants, the rakes' triggers, and what the summary shows. STORM, SPILLING and the
returns of PUMP-HEAD-BLOCKED follow one another (R18, R43), and the return of DRAWDOWN and SCREEN-BLOCKED, which no rule
orders against them (R54, R97), go among them in slot order (R123); that order is assumption 14. The order of the called set
before the triggers is the model's choice (assumption 12), and what is kept for the summary is assumption 32. -/
def Obligations.PeriodEndFormsLevels : Prop :=
  (∀ (s : State) (v : Six (BitVec 12)) (r : BitVec 12), s.level.roundTimer = some 0 →
    10 * s.level.periodSecs ≤ s.level.rounds + 1 →
    exec (.roundComplete v r) s = exec (.periodEnd v r) s ∧
    ∃ t, exec (.periodEnd v r) s = .next t ∧
      (let c := fun n => (takeRound v r s).level.channels.get n
       let ok := fun n => 5 * s.level.periodSecs ≤ (c n).count
       let value := fun n => if ok n then some ((c n).sum / (c n).count) else none
       let valids := fun n => min 255 ((c n).valid + 1)
       let invalids := fun n => min 255 ((c n).invalid + 1)
       (∀ n, let d := t.level.channels.get n
          d.period = (if ok n then .valid else if (c n).held.isSome then .stale else .none) ∧
          d.held = (if ok n then some ((c n).sum / (c n).count) else (c n).held) ∧
          d.invalid = (if ok n then 0 else invalids n) ∧ d.valid = (if ok n then valids n else 0) ∧
          d.fault = (if ok n then (c n).fault && decide (valids n < 2) else (c n).fault || decide (2 ≤ invalids n)) ∧
          d.raw = (c n).raw ∧ d.sample = (c n).sample ∧
          d.sum = 0 ∧ d.count = 0 ∧ d.offset = s.running.offset n ∧ d.span = s.running.span n) ∧
       t.level.wellLevel = (match value .i4, value .i5 with
          | some a, some b =>
            some (if max a b - min a b ≤ s.running.agreementBand then (a + b) / 2 else max a b)
          | some a, none => some a
          | none, some b => some b
          | none, none => none) ∧
       t.level.wellDisagree = (match value .i4, value .i5 with
          | some a, some b => decide (s.running.agreementBand < max a b - min a b)
          | _, _ => s.level.wellDisagree)) ∧
      t.level.mode = (if t.level.wellLevel.isSome then .level else .float) ∧
      t.level.floatMode = (match t.level.wellLevel, s.level.mode with
        | none, .level => true
        | none, .float => s.level.floatMode || s.level.anyPeriodEnd
        | some _, .float => false
        | some _, .level => s.level.floatMode) ∧
      (∀ w, t.level.wellLevel = some w →
        t.level.highLevel = (if s.running.highSetpoint ≤ w then true
          else if w + 50 ≤ s.running.highSetpoint then false else s.level.highLevel) ∧
        t.level.hhLevelPart = decide (s.running.hhSetpoint ≤ w) ∧
        t.level.highHighCause = (s.level.hhFloatPart || t.level.hhLevelPart)) ∧
      (t.level.wellLevel = none →
        t.level.highLevel = s.level.highLevel ∧ t.level.hhLevelPart = s.level.hhLevelPart ∧
        t.level.highHighCause = s.level.highHighCause) ∧
      t.level.hhFloatPart = s.level.hhFloatPart ∧ t.level.rounds = 0 ∧
      t.level.periodSecs = s.running.balancePeriod ∧ t.level.anyPeriodEnd = true ∧
      (let p := s.level.periodSecs
       let round := takeRound v r s
       let handed := offerEdges (levelEdges round.level t.level) { round with level := t.level }
       let lost := decide (s.level.mode = .level ∧ t.level.mode = .float)
       t = conclude (showPeriod (settle (testAllTriggers (settle (wantedPeriodEnd
         (offerPeriodEdges handed (blocksPeriodEnd lost (balancePeriodEnd p handed)))))))) ∧
       (let headed := stageHead (stageVolume { s with level := t.level })
        t.balance = (stageSpill p (stageWeir .i2 (stageWeir .i1 (stageClass p (stageInflow p (stageFlow headed)))))).balance ∧
        ∀ q, (t.pump q).flow = ((stageFlow headed).pump q).flow ∧
          (t.pump q).headLimited = ((stageFlow headed).pump q).headLimited)) ∧
      t.store = s.store ∧ t.clock = s.clock ∧ t.pending = s.pending) ∧
  (∀ a b : Level,
    let edge := fun (k : Kind) (n : Nat) (was now : Bool) (x : List Byte) =>
      if was = now then [] else [(⟨k, n, if now then some x else none⟩ : Edge)]
    let word := fun l : Level => bytes2 (l.wellLevel.getD 65535)
    levelEdges a b =
      ([Ix6.i1, .i2, .i3, .i4, .i5, .i6].map fun n => edge .sensorFault n.num (a.channels.get n).fault
        (b.channels.get n).fault (bytes2 (b.channels.get n).raw)).flatten ++
      edge .wellDisagree 0 a.wellDisagree b.wellDisagree
        (bytes2 (b.channels.a4.held.getD 0) ++ bytes2 (b.channels.a5.held.getD 0)) ++
      edge .floatMode 0 a.floatMode b.floatMode [] ++ edge .highLevel 0 a.highLevel b.highLevel (word b) ++
      edge .highHigh 0 a.highHighCause b.highHighCause
        ([byte ((if b.hhFloatPart then 1 else 0) + (if b.hhLevelPart then 2 else 0))] ++ word b)) ∧
  (∀ a b : State,
    let edge := fun (k : Kind) (n : Nat) (was now : Bool) (x : List Byte) =>
      if was = now then [] else [(⟨k, n, if now then some x else none⟩ : Edge)]
    let opened := fun w : Ix2 => let x := a.balance.weirs.get w
      let y := b.balance.weirs.get w
      if x.spill = .dry ∧ y.spill = .spilling then [(⟨.spilling, w.num, some (bytes2 y.tally.peak)⟩ : Edge)] else []
    let blocked := fun w : Ix2 => edge .screenBlocked w.num (a.screen w).blocked (b.screen w).blocked
      (bytes2 (b.screen w).differential)
    offerPeriodEdges a b = offerStages
      [edge .storm 0 (decide (a.balance.cls = .storm)) (decide (b.balance.cls = .storm)) (bytes2 b.balance.inflow),
        opened .i1 ++ opened .i2,
        ([Ix6.i1, .i2, .i3, .i4, .i5, .i6].map fun p =>
          edge .pumpHeadBlocked p.num (a.pump p).headBlocked (b.pump p).headBlocked []).flatten]
      (edge .drawdown 0 a.duty.drawdownTimer.isSome b.duty.drawdownTimer.isSome [] ++ (blocked .i1 ++ blocked .i2)) b) ∧
  (∀ s : State, showPeriod s = { s with shown :=
    { low := s.level.low.state, high := s.level.high.state, highHigh := s.level.highHigh.state
      spills := ⟨s.balance.weirs.a1.spill, s.balance.weirs.a2.spill⟩, wanted := s.duty.wanted, ladder := s.duty.ladder
      called := s.pumps.map Pump.called, rotationFixed := s.running.rotationFixed
      drawdownActive := s.duty.drawdownTimer.isSome, drawdown := s.duty.drawdown
      drawdownMinutes := (s.duty.drawdownTimer.getD 0 + 5999) / 6000 } })

/-! Station Balance -/

/-- The station computation at a period end with a valid well level (R19, R20, R23): the volume along a rising
stage-storage table and held at its ends, the head above the well, and the inflow from the change of volume and the pumps'
flows, rounded toward zero and held within 0 to 65535. With the well level UNKNOWN there is no volume, the head and the
inflow are held and stale, and the next inflow has no earlier volume (R19, R20, R24).

A pump's curve (R21): its first flow below the first head, its last at or above the last, and between two points the
flow of the lower point and the part of the fall, its negative quotient rounded toward zero; the computed flow is 0 while
run feedback is absent, and the head-limited mark is set at or above the last head.

The stages stand in the order of R18; a class that leaves DRY wakes a QUIET link (R187). -/
def Obligations.StationComputation : Prop :=
  (∀ (s : State) (p level : Nat), s.level.wellLevel = some level → (∀ j, j < 7 → s.running.tableLevel j < s.running.tableLevel (j + 1)) →
     let t := balancePeriodEnd p s
     let l := s.running.tableLevel
     let w := s.running.tableVolume
     (∀ i, i < 7 → l i ≤ level → level < l (i + 1) →
       t.balance.volume = some (w i + (level - l i) * (w (i + 1) - w i) / (l (i + 1) - l i)) ∧
         t.balance.aboveTable = false) ∧
     (level < l 0 → t.balance.volume = some (w 0) ∧ t.balance.aboveTable = false) ∧
     (level = l 7 → t.balance.volume = some (w 7) ∧ t.balance.aboveTable = false) ∧
     (l 7 < level → t.balance.volume = some (w 7) ∧ t.balance.aboveTable = true) ∧
     (let out := s.level.channels.a6
      let lip := s.running.dischargeLip
      t.balance.head = (if out.period = .none then lip else max (out.held.getD 0) lip) - level ∧
        (t.balance.headStale = true ↔ out.period ≠ .valid)) ∧
     (∀ v0 v1, s.balance.vPrev = some v0 → t.balance.volume = some v1 →
       t.balance.inflowStale = false ∧ t.balance.vPrev = some v1 ∧
       (t.balance.inflow : Int) =
         min 65535 (max 0 (((v1 : Int) - (v0 : Int)).tdiv (p : Int) + ((sumFlow t : Nat) : Int)))) ∧
     (s.balance.vPrev = none →
       t.balance.inflowStale = true ∧ t.balance.inflow = s.balance.inflow ∧ t.balance.vPrev = t.balance.volume)) ∧
  (∀ (s : State) (p : Nat), s.level.wellLevel = none →
     let t := balancePeriodEnd p s
     t.balance.volume = none ∧ t.balance.aboveTable = false ∧ t.balance.head = s.balance.head ∧
     t.balance.headStale = true ∧ t.balance.vPrev = none ∧ t.balance.inflow = s.balance.inflow ∧
     t.balance.inflowStale = true) ∧
  (∀ (s : State) (p : Ix6),
     (∀ j, j < 4 → s.running.curveHead p j < s.running.curveHead p (j + 1) ∧
       s.running.curveFlow p (j + 1) ≤ s.running.curveFlow p j) →
     let q := (stageFlow s).pump p
     let h := s.running.curveHead p
     let f := s.running.curveFlow p
     let head := s.balance.head
     ((s.pump p).feedback.state = false → q.flow = 0) ∧
     ((s.pump p).feedback.state = true → head < h 0 → q.flow = f 0) ∧
     ((s.pump p).feedback.state = true → h 4 ≤ head → q.flow = f 4) ∧
     ((s.pump p).feedback.state = true → ∀ i, i < 4 → h i ≤ head → head < h (i + 1) →
       (q.flow : Int) = (f i : Int) +
         (((head : Int) - h i) * ((f (i + 1) : Int) - f i)).tdiv ((h (i + 1) : Int) - h i)) ∧
     (q.headLimited = true ↔ h 4 ≤ head)) ∧
  (∀ (s : State) (p : Nat),
     let u := stageClass p (stageInflow p (stageFlow (stageHead (stageVolume s))))
     balancePeriodEnd p s = stageSpill p (stageWeir .i2 (stageWeir .i1
       (if s.balance.cls = .dry ∧ u.balance.cls ≠ .dry then wakeLink true u else u))))

/-- The inflow class at a period end whose inflow is current (R25, R26): a rise at once, straight to STORM where the rate
reaches it; a fall only after the inflow has stood at or below the leaving threshold for the hold time. A stale inflow
leaves the class and its hold count (R27). Nothing else of the balance moves; a class that moves sets the BALANCE flag
(R35), raises STORM on entry to it with the inflow, and returns STORM on leaving it (R27); O15 says where among the period
end's edges the raise or the return is offered. -/
def Obligations.InflowClassMoves : Prop :=
  (∀ (s : State) (p : Nat), s.balance.inflowStale = true → stageClass p s = s) ∧
  (∀ (s : State) (p : Nat), s.balance.inflowStale = false →
    let t := stageClass p s
    let c := s.running
    let i := s.balance.inflow
    let held := min 65535 (s.balance.hold + p)
    (s.balance.cls = .dry →
      (t.balance.cls, t.balance.hold) =
        if c.stormOn ≤ i then (.storm, 0) else if c.wetOn ≤ i then (.wet, 0) else (.dry, 0)) ∧
    (s.balance.cls = .wet →
      (t.balance.cls, t.balance.hold) =
        if c.stormOn ≤ i then (.storm, 0) else if c.wetOff < i then (.wet, 0)
        else if c.classHold ≤ held then (.dry, 0) else (.wet, held)) ∧
    (s.balance.cls = .storm →
      (t.balance.cls, t.balance.hold) =
        if c.stormOff < i then (.storm, 0) else if c.classHold ≤ held then (.wet, 0) else (.storm, held)) ∧
    (let u := s.onBalance fun b => { b with cls := t.balance.cls, hold := t.balance.hold }
     (t.balance.cls = s.balance.cls → t = u ∧ stormEdge s.balance t.balance = []) ∧
     (t.balance.cls ≠ s.balance.cls → t = setFlag .balance u ∧
       (t.balance.cls = .storm → stormEdge s.balance t.balance = [⟨.storm, 0, some (bytes2 i)⟩]) ∧
       (s.balance.cls = .storm → stormEdge s.balance t.balance = [⟨.storm, 0, none⟩]) ∧
       (t.balance.cls ≠ .storm → s.balance.cls ≠ .storm → stormEdge s.balance t.balance = [])))) ∧
  (∀ (s : State) (x : List Byte), offerEdge ⟨.storm, 0, some x⟩ s = raise ⟨.storm, 0⟩ .advisory x s ∧
    offerEdge ⟨.storm, 0, none⟩ s = returnKey ⟨.storm, 0⟩ s)

/-- The weir stages (R28, R29): the head above the crest within 0 to 4095 mm, its root the largest whole number whose
square does not exceed 256 times it, and the flow from their product, saturating at 65535; without a valid level no flow
is formed; that the head and the root then stand is read from the rule by inference (assumption 18).

A weir's tally and spill state at a period end (R30, R32): a flow adds its volume and seconds and may raise the peak,
and opens an episode only from DRY; a flow of 0 starts the separation time; a flow within it goes on with the same episode;
without a flow the state holds and the tally is marked incomplete. An episode that opens raises SPILLING with the peak, and
a spill state that moves or a tally newly incomplete sets the BALANCE flag (R30, R35).

A weir's separation timer expires (R31, R35): its state is DRY, the return of SPILLING is offered, and the BALANCE flag
is set; the tally and the other weir stand. No rule orders the SPILLING edges of the two weirs at one period end: they go
in slot order, weir 1's first where neither is seated (assumption 14), at the place among the period end's edges that O15
gives. -/
def Obligations.WeirsAndSpills : Prop :=
  (∀ (s : State) (w : Ix2), let x := s.balance.weirs.get w
     let y := (stageWeir w s).balance.weirs.get w
     (∀ level, weirLevel? s w = some level →
       let h := min 4095 (level - s.running.crest w)
       let q := s.running.weirK w * h * y.root / 65536
       y = { x with
         head := h, root := y.root, flow := min 65535 q, status := if 65535 < q then .saturated else .current } ∧
       y.root * y.root ≤ h * 256 ∧ h * 256 < (y.root + 1) * (y.root + 1) ∧ y.root ≤ 1023) ∧
     (weirLevel? s w = none → y = { x with flow := 0, status := .notComputed }) ∧
     stageWeir w s = s.onBalance fun b => { b with weirs := b.weirs.modify w fun _ => y }) ∧
  (∀ (p sep : Nat) (x : Weir), let y := Weir.stage p sep x
     (x.status = .notComputed →
       y = { x with
         tally := { x.tally with incomplete := true }
         separation := if x.spill = .settling then none else x.separation }) ∧
     (x.status ≠ .notComputed → x.flow = 0 →
       y = { x with
         spill := if x.spill = .dry then .dry else .settling
         separation := if x.spill = .dry then x.separation
           else if x.spill = .settling ∧ x.separation.isSome then x.separation else some (100 * sep) }) ∧
     (x.status ≠ .notComputed → x.flow ≠ 0 →
       y = { x with
         spill := .spilling
         separation := if x.spill = .settling then none else x.separation
         tally := { x.tally with
           volume := min 4294967295 (x.tally.volume + x.flow * p)
           seconds := min 4294967295 (x.tally.seconds + p)
           episodes := if x.spill = .dry then min 65535 (x.tally.episodes + 1) else x.tally.episodes
           peak := max x.tally.peak x.flow } })) ∧
  (∀ (p : Nat) (s : State),
     let after := fun w => Weir.stage p s.running.separationTime (s.balance.weirs.get w)
     let u := s.onBalance fun b => { b with weirs := ⟨after .i1, after .i2⟩ }
     let news := fun w => let x := s.balance.weirs.get w
       x.spill ≠ (after w).spill ∨ (x.tally.incomplete = false ∧ (after w).tally.incomplete = true)
     let opened := fun w : Ix2 => if (s.balance.weirs.get w).spill = .dry ∧ (after w).spill = .spilling then
       [(⟨.spilling, w.num, some (bytes2 (after w).tally.peak)⟩ : Edge)] else []
     stageSpill p s = (if news .i1 ∨ news .i2 then setFlag .balance u else u) ∧
     spillEdges s.balance u.balance = opened .i1 ++ opened .i2) ∧
  (∀ (s : State) (w : Ix2), (s.balance.weirs.get w).separation = some 0 → (s.balance.weirs.get w).spill = .settling →
     ∃ t, exec (.separationTimerExpiry w) s = .next t ∧
       t = conclude (returnKey ⟨.spilling, w.num⟩ (setFlag .balance (s.onBalance fun b =>
         { b with weirs := b.weirs.modify w fun x => { x with spill := .dry, separation := none } }))) ∧
       t.balance.weirs.get w = { s.balance.weirs.get w with spill := .dry, separation := none } ∧
       (∀ o, o ≠ w → t.balance.weirs.get o = s.balance.weirs.get o) ∧
       t.port.flags.balance = true ∧ t.level = s.level ∧ t.store = s.store ∧ t.clock = s.clock)

/-! Duty -/

/-- The effective levels of a position (R44): at least the floor, and at least 50 mm between stop and start, whatever the
drawdown. A position comes on at its effective start, goes off at its effective stop, and holds between (R45).

At a period end in LEVEL mode each position is evaluated so from the state it held, and N is the count of positions on,
or 6 with the HIGH-HIGH float made (R45, R46); in FLOAT mode the positions stand and N follows the floats by the first row
that applies: 6 with HIGH-HIGH made, at least 2 with HIGH made, 0 with LOW open, else held.

At a float's debounce expiry (R8, R13, R46): in FLOAT mode N follows that table; in LEVEL mode only HIGH-HIGH moves it, to
6 or to the count of positions on; HIGH-HIGH's float part and its cause follow the float, with their edge.

At a period end the head-blocked delay runs only for a RUNNING pump that is head-limited (R42), and a mark is cleared, with
its return, at or below the head its hysteresis gives (R43); entry to FLOAT mode ends a drawdown (R54). O15 says where those
edges and the screens' are offered; pumps that no slot orders are taken 1 to 6 (assumption 14). -/
def Obligations.PositionsAndWanted : Prop :=
  (∀ (c : Settings) (d level : Nat) (k : Ix6),
     c.effectiveStop d k = max (c.dutyStop k - d) c.pumpOffFloor ∧
     c.effectiveStart d k = max (c.dutyStart k - d) (c.effectiveStop d k + 50) ∧
     (c.position d level k false = true ↔ c.effectiveStart d k ≤ level) ∧
     (c.position d level k true = false ↔ level ≤ c.effectiveStop d k)) ∧
  (∀ s : State, let t := wantedPeriodEnd s
     let on := t.duty.positions.toList.countP id
     let l := s.level
     t = { s with duty := { s.duty with positions := t.duty.positions, wanted := t.duty.wanted } } ∧
     (∀ level, l.mode = .level → l.wellLevel = some level →
       (∀ k, t.duty.positions.get k = s.running.position s.duty.drawdown level k (s.duty.positions.get k)) ∧
       t.duty.wanted = if l.highHigh.state then 6 else on) ∧
     (l.mode = .float → t.duty.positions = s.duty.positions ∧
       t.duty.wanted = if l.highHigh.state then 6 else if l.high.state then max s.duty.wanted 2
         else if l.low.state then s.duty.wanted else 0)) ∧
  (∀ (s : State) (f : FloatId), (s.level.float f).timer = some 0 →
     ∃ t, exec (.floatDebounceExpiry f) s = .next t ∧
       (s.level.mode = .float → t.duty = { s.duty with
         ladder := t.duty.ladder
         wanted := if t.level.highHigh.state then 6 else if t.level.high.state then max s.duty.wanted 2
           else if t.level.low.state then s.duty.wanted else 0 }) ∧
       (s.level.mode = .level → t.duty = { s.duty with
         ladder := t.duty.ladder
         wanted := if f ≠ .highHigh then s.duty.wanted else if t.level.highHigh.state then 6
           else s.duty.positions.toList.countP id }) ∧
       (f ≠ .highHigh → t.level.hhFloatPart = s.level.hhFloatPart ∧ t.level.highHighCause = s.level.highHighCause) ∧
       (f = .highHigh → t.level.hhFloatPart = t.level.highHigh.state ∧
         t.level.highHighCause = (t.level.highHigh.state || s.level.hhLevelPart) ∧
         let u := { s with level := t.level }
         let v := if t.level.highHighCause = s.level.highHighCause then u
           else if t.level.highHighCause then raise ⟨.highHigh, 0⟩ .critical
             (byte ((if t.level.hhFloatPart then 1 else 0) + (if t.level.hhLevelPart then 2 else 0)) ::
               bytes2 (s.level.wellLevel.getD 65535)) u
           else returnKey ⟨.highHigh, 0⟩ u
         t = conclude { v with duty := { s.duty with wanted := t.duty.wanted } })) ∧
  (∀ s : State, let t := headPeriodEnd s
     (∀ p, let q := s.pump p
       let still := q.headBlocked && decide (s.running.curveHead p 4 - s.running.headHysteresis p < s.balance.head)
       t.pump p = { q with
         headTimer := if q.seq = .running ∧ q.headLimited = true then
           (if q.headTimer = none then some (100 * s.running.headBlockedDelay p) else q.headTimer) else none
         headBlocked := still }) ∧
     t = { s with pumps := t.pumps } ∧
     ∀ lost : Bool, blocksPeriodEnd lost s =
       (let ended := lost && s.duty.drawdownTimer.isSome
        let u := headPeriodEnd (if ended then s.onDuty fun d => { d with drawdown := 0, drawdownTimer := none } else s)
        formScreens u) ∧
       headEdges s (blocksPeriodEnd lost s) =
         ([Ix6.i1, .i2, .i3, .i4, .i5, .i6].filter fun p =>
           (s.pump p).headBlocked && !(t.pump p).headBlocked).map fun p => ⟨.pumpHeadBlocked, p.num, none⟩)

/-- The called set in full (R39, R47): with C the eligible pumps in STARTING or RUNNING in ladder order, the first N of C,
or, where C holds fewer, C and the first of the pumps in IDLE or QUEUED that are eligible and not starts-limited that make
up N. A pump is eligible with its selector in AUTO, its lockout set empty, its head-blocked mark clear and its state one of
IDLE, QUEUED, STARTING and RUNNING. So only eligible pumps are called, none twice, at most N of them, and a pump in STARTING
or RUNNING is never displaced by one called afresh. Each pump's called field follows the set (R48). -/
def Obligations.CalledSet : Prop :=
  (∀ s : State,
    let eligible := fun p => let q := s.pump p
      q.selector = .auto ∧ q.locks = ⟨false, false, false, false, false⟩ ∧ q.headBlocked = false ∧
        (q.seq = .idle ∨ q.seq = .queued ∨ q.seq = .starting ∨ q.seq = .running)
    let running := fun p => (s.pump p).seq = .starting ∨ (s.pump p).seq = .running
    let n := s.duty.wanted
    let c := s.duty.ladder.filter fun p => decide (eligible p ∧ running p)
    let fresh := s.duty.ladder.filter fun p =>
      decide (eligible p ∧ ((s.pump p).seq = .idle ∨ (s.pump p).seq = .queued) ∧ (s.pump p).startsLimited = false)
    (n ≤ c.length → calledSet s = c.take n) ∧
    (c.length < n → calledSet s = c ++ fresh.take (n - c.length)) ∧
    (LadderOk s.duty.ladder →
      (calledSet s).Nodup ∧ (calledSet s).length ≤ n ∧ (∀ p ∈ calledSet s, eligible p) ∧
      (∀ p ∈ calledSet s, ¬running p → (s.pump p).startsLimited = false ∧
        ∀ q, eligible q → running q → q ∈ calledSet s))) ∧
  (∀ s : State, let t := formCalled s
    t = { s with pumps := t.pumps } ∧ ∀ p, t.pump p = { s.pump p with called := decide (p ∈ calledSet s) })

/-- The timed events of the duty (R40 to R42, R54, R55, R67): the oldest start ages out and the starts-limited state is
evaluated again, with its edge; a head-blocked delay marks the pump, raises PUMP-HEAD-BLOCKED with the head and stops the
pump at once; a drawdown ends; a hundredth run tick is a run second. That a hundred is taken off a run tick count above 100
is the model's choice, since its ticks and this event are apart (assumption 7). -/
def Obligations.DutyTimers : Prop :=
  (∀ (s : State) (p : Ix6),
    (∀ first rest, (s.pump p).history = first :: rest → 360000 ≤ ticksSince s.clock.uptime first →
      exec (.startHistoryAgeOut p) s =
        .next (conclude (reviewStarts p (s.onPump p fun q => { q with history := rest })))) ∧
    ((s.pump p).headTimer = some 0 → (s.pump p).seq = .running →
      exec (.headBlockedDelayExpiry p) s =
        .next (conclude (stopPump .headBlocked p (raise ⟨.pumpHeadBlocked, p.num⟩ .minor (bytes2 s.balance.head)
          (s.onPump p fun q => { q with headTimer := none, headBlocked := true }))))) ∧
    (s.duty.drawdownTimer = some 0 →
      exec .drawdownExpiry s =
        .next (conclude (returnKey ⟨.drawdown, 0⟩
          (s.onDuty fun d => { d with drawdown := 0, drawdownTimer := none })))) ∧
    (100 ≤ (s.pump p).runTicks →
      exec (.runSecondsTick p) s =
        .next (s.onPump p fun q =>
          { q with runTicks := q.runTicks - 100, runSeconds := min 4294967295 (q.runSeconds + 1) }))) ∧
  (∀ (s : State) (p : Ix6), let q := s.pump p
    let limit := s.running.startsPerHour p
    let full := decide (limit ≤ q.history.length)
    let u := s.onPump p fun q => { q with startsLimited := full }
    reviewStarts p s = if full = q.startsLimited then u
      else if full then raise ⟨.pumpStartsLimit, p.num⟩ .advisory [byte limit] u
      else returnKey ⟨.pumpStartsLimit, p.num⟩ u)

/-- SET DUTY ORDER (R50): a permutation of the six pumps that differs from the ladder replaces it; the ladder in force is
answered ALREADY; any other list OUT-OF-RANGE, and the ladder stands.

INHIBIT PUMP and RELEASE PUMP (R51, R75): the mark and the PANEL-INHIBIT reason are set or cleared at once, ALREADY
where the mark stands so, OUT-OF-RANGE where no pump is named. PUMP-INHIBITED is raised with the panel as its source where
the town's mark is clear, and returned where it is clear; no rule orders the raise and the return of POWER-SHED that the
lockout of a QUEUED pump may make, and their order is that of assumption 14.

LOAD TOTALS (R56): the totals of a pump in OFF or IDLE take the values and its tick count goes to 0; WRONG-STATE in
any other state; OUT-OF-RANGE where no pump is named. -/
def Obligations.DutyPanelCommands : Prop :=
  (∀ (s : State) (order : Six Byte), s.portIdle →
     (∀ l : List Ix6, LadderOk l → order.toList.map BitVec.toNat = l.map Ix6.num →
       (l = s.duty.ladder → exec (.setDutyOrder order) s = .next (s.answered [1])) ∧
       (l ≠ s.duty.ladder → exec (.setDutyOrder order) s =
         .next (conclude ((s.onDuty fun d => { d with ladder := l }).answered [0])))) ∧
     ((∀ l : List Ix6, LadderOk l → order.toList.map BitVec.toNat ≠ l.map Ix6.num) →
       exec (.setDutyOrder order) s = .next (s.answered [6]))) ∧
  (∀ (s : State) (b : Byte), s.portIdle →
     (∀ p, b.toNat = p.num →
       ((s.pump p).panelMark = true → exec (.inhibitPump b) s = .next (s.answered [1])) ∧
       ((s.pump p).panelMark = false → exec (.releasePump b) s = .next (s.answered [1])) ∧
       ((s.pump p).panelMark = false → ∃ t, exec (.inhibitPump b) s = .next t ∧
         t = conclude ((addReason p .panelInhibit
           (if (s.pump p).townMark then [] else [⟨.pumpInhibited, p.num, some [1]⟩])
           (s.onPump p fun q => { q with panelMark := true })).answered [0]) ∧
         (t.pump p).panelMark = true ∧ (t.pump p).locks = { (s.pump p).locks with panelInhibit := true } ∧
         (t.pump p).acks = (s.pump p).acks ∧ t.port.phase = .result [0] ∧
         t.balance = s.balance ∧ t.level = s.level ∧ t.store = s.store) ∧
       ((s.pump p).panelMark = true → ∃ t, exec (.releasePump b) s = .next t ∧
         (let u := s.onPump p fun q => { q with panelMark := false, locks := { q.locks with panelInhibit := false } }
          t = conclude ((if (s.pump p).townMark then u else returnKey ⟨.pumpInhibited, p.num⟩ u).answered [0])) ∧
         (t.pump p).panelMark = false ∧ (t.pump p).locks = { (s.pump p).locks with panelInhibit := false } ∧
         (t.pump p).acks = (s.pump p).acks ∧ t.port.phase = .result [0] ∧
         t.balance = s.balance ∧ t.level = s.level ∧ t.store = s.store)) ∧
     ((∀ p : Ix6, b.toNat ≠ p.num) →
       exec (.inhibitPump b) s = .next (s.answered [6]) ∧ exec (.releasePump b) s = .next (s.answered [6]))) ∧
  (∀ (s : State) (b : Byte) (secs starts : BitVec 32), s.portIdle →
     (∀ p, b.toNat = p.num →
       ((s.pump p).seq = .off ∨ (s.pump p).seq = .idle →
         exec (.loadTotals b secs starts) s =
           .next ((s.onPump p fun q =>
             { q with runSeconds := secs.toNat, starts := starts.toNat, runTicks := 0 }).answered [0])) ∧
       ((s.pump p).seq ≠ .off → (s.pump p).seq ≠ .idle →
         exec (.loadTotals b secs starts) s = .next (s.answered [7]))) ∧
     ((∀ p : Ix6, b.toNat ≠ p.num) → exec (.loadTotals b secs starts) s = .next (s.answered [6])))

/-! The Sequencer -/

/-- The grant of a pump (R40, R61, R63, R87, R89): STARTING with the contactor closed, the units in force recorded as its
claim, the start entered in the history and counted, the start window and the stagger timer started, the shed mark
cleared.

The grant of a rake (R85, R100, R110): it holds a claim for its units with its shed mark cleared, and enters the first stage
of its operation on a new leg with upward count 0 and the jam timer started, a cycle or a FINISH clearing the pending
trigger flag; a PAUSED one enters its saved stage instead, a motor stage in its direction with the jam timer afresh and a
dwell or a reverse in full. A motor stage whose own limit is found made ends at once; that a POSITIONING leg does so, and
that a resumed REVERSING looks at the limit of its own direction, is the model's choice (assumptions 19 and 20).

A shed rake is PAUSED (R110): motors off, the claim taken back, its timers stopped, its stage saved, and the rake queued.

Entry to STOPPING from STARTING or RUNNING (R61, R69, R49): contactor open, claim released, start window, minimum run
and head-blocked delay cancelled, stop window and run-down started; the ladder moves only for a withdrawn call in
ON-STOP, and only that pump, to the tail.

The stagger timer's expiry stops it (R87), and the event goes on to its grants. -/
def Obligations.GrantAndStopEffects : Prop :=
  (∀ (s : State) (p : Ix6), let t := grantPump p s
     t.pump p = { s.pump p with
       seq := .starting, contactor := true, claim := some (s.running.pumpUnits p)
       history := (s.pump p).history ++ [s.clock.uptime], starts := min 4294967295 ((s.pump p).starts + 1)
       startWindow := some (100 * s.running.startWindow p), shedMark := false
       startsLimited := decide (s.running.startsPerHour p ≤ (s.pump p).history.length + 1) } ∧
     (∀ q, q ≠ p → t.pump q = s.pump q) ∧
     t.power = { s.power with stagger := some (100 * s.running.staggerTime) } ∧
     t.screens = s.screens ∧ t.duty = s.duty ∧ t.level = s.level ∧ t.balance = s.balance ∧ t.store = s.store) ∧
  (∀ (s : State) (n : Ix2), let sc := s.screen n
     let granted := offerEdges (shedEnds (.rake n) s) (s.onScreen n fun a => { a with
       claim := some (s.running.rakeUnits n), shedMark := false })
     let runs := fun (t : State) (st : RakeState) (d : Dir) => t.onScreen n fun a => { a with
       rake := st, up := decide (d = .up), down := decide (d = .down), jamTimer := some (100 * s.running.jamTime n) }
     let back := granted.onScreen n fun a => { a with saved := none }
     let d := if sc.interrupted = .up then Dir.down else .up
     let reversed := runs (back.onScreen n fun a => { a with reverse := some (100 * s.running.reverseTime n) }) .reversing d
     (sc.rake ≠ .paused ∨ sc.saved = none → grantRake n s = firstStage n granted) ∧
     (sc.rake = .paused →
       (sc.saved = some .descending → grantRake n s = checkLimit n (runs back .descending .down)) ∧
       (sc.saved = some .ascending → grantRake n s = checkLimit n (runs back .ascending .up)) ∧
       (sc.saved = some .homing → grantRake n s = checkLimit n (runs back .homing .up)) ∧
       (sc.saved = some .positioning → grantRake n s = checkLimit n (runs back .positioning sc.leg)) ∧
       (sc.saved = some .gripping → grantRake n s = back.onScreen n fun a => { a with
         rake := .gripping, dwell := some (100 * s.running.gripDwell n) }) ∧
       (sc.saved = some .discharging → grantRake n s = back.onScreen n fun a => { a with
         rake := .discharging, dwell := some (100 * s.running.dischargeDwell n) }) ∧
       (sc.saved = some .reversing →
         (d = .up → sc.home.state = true →
           grantRake n s = endReverse n (reversed.onScreen n fun a => { a with position := 0 })) ∧
         (d = .down → sc.bottom.state = true → grantRake n s = endReverse n reversed) ∧
         ((d = .up → sc.home.state = false) → (d = .down → sc.bottom.state = false) → grantRake n s = reversed)))) ∧
  (∀ (s : State) (n : Ix2), let sc := s.screen n
     let leg := fun (t : State) (st : RakeState) (d : Dir) => checkLimit n (t.onScreen n fun a => { a with
       leg := d, upCount := 0, legLimit := s.running.travelLimit n
       rake := st, up := decide (d = .up), down := decide (d = .down), jamTimer := some (100 * s.running.jamTime n) })
     (sc.op = .cycle ∨ (∃ k, sc.op = .finish k) →
       firstStage n s = leg (s.onScreen n fun a => { a with pending := false }) .descending .down) ∧
     (sc.op = .home true ∨ sc.op = .home false → firstStage n s = leg s .homing .up) ∧
     (∀ p, sc.op = .position p →
       (p < sc.position → firstStage n s = leg s .positioning .up) ∧
       (sc.position < p → firstStage n s = leg s .positioning .down) ∧
       (p = sc.position → firstStage n s = finishPosition n s)) ∧
     (sc.rake = .descending → checkLimit n s = if sc.bottom.state then enterGripping n s else s) ∧
     (sc.rake = .ascending → checkLimit n s = if sc.home.state then enterDischarging n s else s) ∧
     (sc.rake = .homing → checkLimit n s = if sc.home.state then finishHoming n s else s) ∧
     (sc.rake = .positioning → checkLimit n s =
       if sc.up = true ∧ sc.home.state = true then finishPosition n (s.onScreen n fun a => { a with position := 0 })
       else if sc.down = true ∧ sc.bottom.state = true then finishPosition n s else s) ∧
     enterGripping n s = s.onScreen n (fun a => { a with
       rake := .gripping, up := false, down := false, jamTimer := none, grip := true
       dwell := some (100 * s.running.gripDwell n) }) ∧
     enterDischarging n s = s.onScreen n (fun a => { a with
       rake := .discharging, up := false, down := false, jamTimer := none, position := 0, grip := false
       dwell := some (100 * s.running.dischargeDwell n) }) ∧
     pauseRake n s = joinQueue (.rake n) (s.onScreen n fun a => { a with
       rake := .paused, saved := some sc.rake, up := false, down := false, claim := none, jamTimer := none
       dwell := none, reverse := none })) ∧
  (∀ (s : State) (p : Ix6) (r : StopReason), let t := stopPump r p s
     t.pump p = { s.pump p with
       seq := .stopping, contactor := false, claim := none, startWindow := none, minRun := none, headTimer := none
       stopWindow := some (100 * s.running.stopWindow p), stopDone := false
       runDown := some (100 * s.running.runDown p) } ∧
     (∀ q, q ≠ p → t.pump q = s.pump q) ∧
     (r = .callWithdrawn → s.running.rotationFixed = false →
       t.duty.ladder.getLast? = some p ∧ t.duty.ladder.filter (· ≠ p) = s.duty.ladder.filter (· ≠ p)) ∧
     ((r ≠ .callWithdrawn ∨ s.running.rotationFixed = true) → t.duty = s.duty) ∧
     t.screens = s.screens ∧ t.power = s.power ∧ t.table = s.table ∧ t.link = s.link ∧ t.port = s.port) ∧
  (∀ s : State, s.power.stagger = some 0 →
     exec .staggerTimerExpiry s = .next (conclude { s with power := { s.power with stagger := none } }))

/-- The start window of a STARTING pump expires (R65, R69): FAIL-START joins the lockout set with its mark clear, the
condition is raised with the start window, and the pump stops for a lockout.

The minimum run, the stop window and the run-down (R66, R70, R71): what each expiry does in each case of the table of
R70; entry to RUN-ON raises PUMP-FAIL-STOP and clears the shed mark, whose edges are offered in slot order (R89, R123; the
order of new raises is the model's choice, assumption 14). -/
def Obligations.SequencerTimers : Prop :=
  (∀ (s : State) (p : Ix6), (s.pump p).startWindow = some 0 → (s.pump p).seq = .starting →
     ∃ t, exec (.startWindowExpiry p) s = .next t ∧
       t = conclude (raise ⟨.pumpFailStart, p.num⟩ .major [byte (s.running.startWindow p)] (stopPump .lockout p
         (s.onPump p fun q => { q with
           startWindow := none, locks := { q.locks with failStart := true }
           acks := { q.acks with failStart := false } }))) ∧
       (t.pump p).locks = { (s.pump p).locks with failStart := true } ∧
       (t.pump p).acks = { (s.pump p).acks with failStart := false } ∧
       (∀ q, q ≠ p → (t.pump q).locks = (s.pump q).locks) ∧
       t.level = s.level ∧ t.balance = s.balance ∧ t.store = s.store ∧ t.clock = s.clock) ∧
  (∀ (s : State) (p : Ix6), let q := s.pump p
     (q.minRun = some 0 →
       exec (.minRunExpiry p) s = .next (conclude (s.onPump p fun q => { q with minRun := none }))) ∧
     (q.stopWindow = some 0 → q.seq = .stopping → q.feedback.state = false → q.runDown = none →
       exec (.stopWindowExpiry p) s =
         .next (conclude (s.onPump p fun q => { q with seq := .idle, stopWindow := none, stopDone := false }))) ∧
     (q.stopWindow = some 0 → q.seq = .stopping → q.feedback.state = false → q.runDown ≠ none →
       exec (.stopWindowExpiry p) s =
         .next (conclude (s.onPump p fun q => { q with stopWindow := none, stopDone := true }))) ∧
     (q.stopWindow = some 0 → q.seq = .stopping → q.feedback.state = true →
       exec (.stopWindowExpiry p) s = .next (conclude (offerEdges
         (shedEnds (.pump p) s ++ [⟨.pumpFailStop, p.num, some [0]⟩]) (s.onPump p fun q =>
           { q with seq := .runOn, stopWindow := none, stopDone := false, runDown := none, shedMark := false })))) ∧
     (q.runDown = some 0 → q.seq = .stopping → q.stopDone = true →
       exec (.runDownExpiry p) s =
         .next (conclude (s.onPump p fun q => { q with seq := .idle, runDown := none, stopDone := false }))) ∧
     (q.runDown = some 0 → q.seq = .stopping → q.stopDone = false →
       exec (.runDownExpiry p) s = .next (conclude (s.onPump p fun q => { q with runDown := none }))))

/-- A pump's run feedback after its debounce, by sequencer state (R64, R68, R70 to R72): RUNNING from STARTING; RUN-ON from
IDLE, QUEUED and a STOPPING whose stop window is done, with the route of its entry; TRIP from RUNNING; STOPPING with a fresh
run-down from RUN-ON, and PUMP-FAIL-STOP returned; nothing in any other case.

The debounce's expiry takes the line to them (R60). A thermal input abnormal raises PUMP-THERMAL and adds THERMAL, unless it
is held; normal again, it releases what has both halves (R73, R76). A seal input raises and returns PUMP-SEAL (R74). A reason
joins the lockout set with its mark clear: a QUEUED pump leaves the queue for IDLE, a STARTING or RUNNING one stops (R67).

A change of the selector (R38, R78): to OFF or HAND the pump stands aside at once, out of the queue, with no claim and no
timer, and PUMP-FAIL-STOP returned from RUN-ON; to AUTO it is IDLE, or RUN-ON where feedback is present. Lockouts, their
marks and the history carry through, and the ladder does not move. Where one of these has two edges that no rule orders, their
order is the model's (assumption 14). -/
def Obligations.FeedbackAndSelector : Prop :=
  (∀ (s : State) (p : Ix6), let q := s.pump p
     let runOn := fun (route : Byte) (t : State) => offerEdges
       (shedEnds (.pump p) t ++ [⟨.pumpFailStop, p.num, some [route]⟩]) (t.onPump p fun q =>
         { q with seq := .runOn, stopWindow := none, stopDone := false, runDown := none, shedMark := false })
     (q.seq = .starting →
       feedbackPresent p s = s.onPump p fun q => { q with
         seq := .running, startWindow := none, minRun := some (100 * s.running.minRun p)
         runningSince := s.clock.uptime }) ∧
     (q.seq = .idle → feedbackPresent p s = runOn 1 s) ∧
     (q.seq = .queued → feedbackPresent p s =
       runOn 2 (s.onPower fun w => { w with queue := w.queue.filter fun c => c ≠ .pump p })) ∧
     (q.seq = .stopping → feedbackPresent p s = if q.stopDone then runOn 0 s else s) ∧
     (q.seq = .off ∨ q.seq = .hand ∨ q.seq = .running ∨ q.seq = .runOn → feedbackPresent p s = s) ∧
     (q.seq = .running → feedbackAbsent p s = addReason p .trip [⟨.pumpTrip, p.num,
       some (bytes2 (min 65535 (ticksSince s.clock.uptime q.runningSince / 100)))⟩] s) ∧
     (q.seq = .runOn → feedbackAbsent p s = returnKey ⟨.pumpFailStop, p.num⟩ (s.onPump p fun q => { q with
       seq := .stopping, stopDone := true, runDown := some (100 * s.running.runDown p) })) ∧
     (q.seq ≠ .running → q.seq ≠ .runOn → feedbackAbsent p s = s)) ∧
  (∀ (s : State) (p : Ix6), let q := s.pump p
     (q.feedback.timer = some 0 → let u := s.onPump p fun q => { q with feedback := lineTaken q.feedback }
       exec (.pumpInputDebounceExpiry p .feedback) s =
         .next (conclude (if q.feedback.line then feedbackPresent p u else feedbackAbsent p u))) ∧
     (q.thermal.timer = some 0 → let u := s.onPump p fun q => { q with thermal := lineTaken q.thermal }
       exec (.pumpInputDebounceExpiry p .thermal) s = .next (conclude
         (if q.thermal.line = false then releaseReasons p u else if q.locks.thermal then u
         else addReason p .thermal [⟨.pumpThermal, p.num, some [byte q.seq.code]⟩] u))) ∧
     (q.sealProbe.timer = some 0 → let u := s.onPump p fun q => { q with sealProbe := lineTaken q.sealProbe }
       exec (.pumpInputDebounceExpiry p .sealProbe) s = .next (conclude
         (if q.sealProbe.line then raise ⟨.pumpSeal, p.num⟩ .minor [] u else returnKey ⟨.pumpSeal, p.num⟩ u)))) ∧
  (∀ (s : State) (p : Ix6) (r : PumpReason) (es : List Edge), let q := s.pump p
     let u := s.onPump p fun q => { q with locks := q.locks.put r true, acks := q.acks.put r false }
     (q.seq = .queued → addReason p r es s = offerEdges (es ++ shedEnds (.pump p) s)
       ((u.onPump p fun q => { q with seq := .idle, shedMark := false }).onPower fun w =>
         { w with queue := w.queue.filter fun c => c ≠ .pump p })) ∧
     (q.seq = .starting ∨ q.seq = .running → addReason p r es s = offerEdges es (stopPump .lockout p u)) ∧
     (q.seq ≠ .queued → q.seq ≠ .starting → q.seq ≠ .running → addReason p r es s = offerEdges es u)) ∧
  (∀ (s : State) (p : Ix6),
     (∀ sel, sel = .off ∨ sel = .hand →
       moveSelector p sel s = offerEdges (shedEnds (.pump p) s ++
         (if (s.pump p).seq = .runOn then [⟨.pumpFailStop, p.num, none⟩] else []))
         ((s.onPump p fun q => { q with
           selector := sel, seq := if sel = .hand then .hand else .off, contactor := false, claim := none
           startWindow := none, minRun := none, stopWindow := none, stopDone := false, runDown := none
           headTimer := none, shedMark := false }).onPower fun w =>
         { w with queue := w.queue.filter fun c => c ≠ .pump p })) ∧
     (let t := moveSelector p .auto s
      (t.pump p).seq = (if (s.pump p).feedback.state then .runOn else .idle) ∧ (t.pump p).selector = .auto ∧
       (t.pump p).locks = (s.pump p).locks ∧ (t.pump p).acks = (s.pump p).acks ∧
       (t.pump p).history = (s.pump p).history ∧ t.duty = s.duty ∧
       ((s.pump p).feedback.state = false →
         t = s.onPump p fun q => { q with selector := .auto, seq := .idle }) ∧
       ((s.pump p).feedback.state = true → t = offerEdges
         (shedEnds (.pump p) s ++ [⟨.pumpFailStop, p.num, some [3]⟩]) (s.onPump p fun q => { q with
           selector := .auto, seq := .runOn, stopWindow := none, stopDone := false, runDown := none
           shedMark := false }))) ∧
     (∀ l : SelectorLine, ((s.pump p).line l).timer = some 0 →
       let u := s.onPump p fun q => match l with
         | .hand => { q with hand := lineTaken q.hand }
         | .auto => { q with auto := lineTaken q.auto }
       let sel := selectorOf (u.pump p).hand.state (u.pump p).auto.state
       exec (.selectorDebounceExpiry p l) s =
         .next (conclude (if sel = (s.pump p).selector then u else moveSelector p sel u))) ∧
     selectorOf true false = .hand ∧ selectorOf false true = .auto ∧ selectorOf false false = .off ∧
       selectorOf true true = .off)

/-- RESET LOCKOUT (R76, R77, R115): ALREADY where no latched reason is held; else every held reason's mark is set, the RAISED
seated records of the reasons held are acknowledged by the panel, and every latched reason whose input is normal leaves the
set, one whose input is not staying with its mark set; OUT-OF-RANGE for any other class or number.

A record-acknowledged notice (R76, R114, R129, R189): the mark of a reason held is set and what then has both halves is
released, its condition returned; LINK-PROTOCOL's cause is released where present; a notice with nothing to release, and
any other kind, changes nothing. A rake whose set empties in LOCKED is unhomed and begins its automatic HOME. That the
returns of one release go in slot order is assumption 14, and that a pump's or a rake's mark stays set after its release is
the model's choice (assumption 34). -/
def Obligations.ResetLockout : Prop :=
  (∀ (s : State) (c n : Byte), s.portIdle →
    exec (.resetLockout c n) s =
      (let r := takeReset c.toNat n.toNat (s.taken 0x13 [c, n])
       .next (conclude (reply r.1 [] r.2))) ∧
    ((∀ p : Ix6, ¬(c = 3 ∧ n.toNat = p.num)) → (∀ m : Ix2, ¬(c = 4 ∧ n.toNat = m.num)) →
      takeReset c.toNat n.toNat s = (.outOfRange, s))) ∧
  (∀ (s : State) (p : Ix6), let q := s.pump p
     let l := q.locks
     let marked := s.onPump p fun q => { q with acks :=
       ⟨q.acks.thermal || l.thermal, q.acks.trip || l.trip, q.acks.failStart || l.failStart⟩ }
     let held := (if l.thermal then [⟨.pumpThermal, p.num⟩] else []) ++ (if l.trip then [⟨.pumpTrip, p.num⟩] else []) ++
       (if l.failStart then [(⟨.pumpFailStart, p.num⟩ : Key)] else [])
     (held = [] → takeReset 3 p.num s = (.already, s)) ∧
     (held ≠ [] → takeReset 3 p.num s = (.done, releaseReasons p (ackRaised held marked)) ∧
       let t := (takeReset 3 p.num s).2
       (t.pump p).locks = { l with thermal := l.thermal && q.thermal.state, trip := false, failStart := false } ∧
       (l.thermal = true → (t.pump p).acks.thermal = true)) ∧
     (let goes := fun (h a normal : Bool) => h && a && normal
      let th := goes l.thermal q.acks.thermal (!q.thermal.state)
      let tr := goes l.trip q.acks.trip true
      let fs := goes l.failStart q.acks.failStart true
      releaseReasons p s = offerEdges ((if th then [⟨.pumpThermal, p.num, none⟩] else []) ++
          (if tr then [⟨.pumpTrip, p.num, none⟩] else []) ++ (if fs then [⟨.pumpFailStart, p.num, none⟩] else []))
        (s.onPump p fun q => { q with locks := { l with
          thermal := l.thermal && !th, trip := l.trip && !tr, failStart := l.failStart && !fs } })) ∧
     sendNotice ⟨.pumpThermal, p.num⟩ s = (if l.thermal then
       releaseReasons p (s.onPump p fun q => { q with acks := { q.acks with thermal := true } }) else s) ∧
     sendNotice ⟨.pumpTrip, p.num⟩ s = (if l.trip then
       releaseReasons p (s.onPump p fun q => { q with acks := { q.acks with trip := true } }) else s) ∧
     sendNotice ⟨.pumpFailStart, p.num⟩ s = (if l.failStart then
       releaseReasons p (s.onPump p fun q => { q with acks := { q.acks with failStart := true } }) else s)) ∧
  (∀ (s : State) (m : Ix2), let q := s.screen m
     let l := q.locks
     let marked := s.onScreen m fun q => { q with acks :=
       ⟨q.acks.jam || l.jam, q.acks.overload || l.overload, q.acks.travel || l.travel⟩ }
     let held := (if l.jam then [⟨.rakeJam, m.num⟩] else []) ++ (if l.overload then [⟨.rakeOverload, m.num⟩] else []) ++
       (if l.travel then [(⟨.rakeTravel, m.num⟩ : Key)] else [])
     (held = [] → takeReset 4 m.num s = (.already, s)) ∧
     (held ≠ [] → takeReset 4 m.num s = (.done, releaseRake m (ackRaised held marked)) ∧
       let t := (takeReset 4 m.num s).2
       (t.screen m).locks = { jam := false, overload := l.overload && q.overload.state, travel := false } ∧
       (l.overload = true → (t.screen m).acks.overload = true)) ∧
     (let goes := fun (h a normal : Bool) => h && a && normal
      let ja := goes l.jam q.acks.jam true
      let ov := goes l.overload q.acks.overload (!q.overload.state)
      let tr := goes l.travel q.acks.travel true
      let left : RakeLocks := ⟨l.jam && !ja, l.overload && !ov, l.travel && !tr⟩
      let u := offerEdges ((if ja then [⟨.rakeJam, m.num, none⟩] else []) ++
          (if ov then [⟨.rakeOverload, m.num, none⟩] else []) ++ (if tr then [⟨.rakeTravel, m.num, none⟩] else []))
        (s.onScreen m fun q => { q with locks := left })
      releaseRake m s = if left = ⟨false, false, false⟩ ∧ q.rake = .locked then
        joinQueue (.rake m) (u.onScreen m fun q => { q with
          rake := .waiting, homed := false, op := .home true, retries := 0, cycles := 0, saved := none
          up := false, down := false })
        else u) ∧
     sendNotice ⟨.rakeJam, m.num⟩ s = (if l.jam then
       releaseRake m (s.onScreen m fun q => { q with acks := { q.acks with jam := true } }) else s) ∧
     sendNotice ⟨.rakeOverload, m.num⟩ s = (if l.overload then
       releaseRake m (s.onScreen m fun q => { q with acks := { q.acks with overload := true } }) else s) ∧
     sendNotice ⟨.rakeTravel, m.num⟩ s = (if l.travel then
       releaseRake m (s.onScreen m fun q => { q with acks := { q.acks with travel := true } }) else s)) ∧
  (∀ (s : State) (k : Key) (ks : List Key),
     (k.kind = .linkProtocol → sendNotice k s = if s.link.protocolCause then
       returnKey ⟨.linkProtocol, 0⟩ (s.onLink fun l => { l with protocolAck := true, protocolCause := false }) else s) ∧
     (k.kind.latched = false → sendNotice k s = s) ∧
     (let t := ackRaised ks s
      t = { s with table := t.table, port := t.port } ∧
       ∀ i, i < 48 → (∀ r, (s.table.slot i).record = some r → r.state = .raised → r.key ∈ ks →
           ∃ o, t.table.slot i = { s.table.slot i with record := some { r with
             state := .acked, ackBy := .panel, lastChange := s.clock.station, changeOrder := o, townCurrent := false } } ∧
             t.port.flags.condition = true) ∧
         ((∀ r, (s.table.slot i).record = some r → r.state = .raised → r.key ∉ ks) →
           t.table.slot i = s.table.slot i)))

/-! Power -/

/-- The source and its edges (R81, R82): MAINS while MAINS-OK is made, else GENERATOR while GEN-ON is, else NONE; a change
sets the POWER flag and offers its edges: MAINS-FAIL raised as MAINS is left and returned as it comes back, NO-POWER raised
as NONE is entered and returned as it is left, in the order of R82, each raise with the three lines; the source is not
derived while the transferring mark is set.

The transfer handshake (R90 to R93): a request made sets the mark, holds the source and sets the POWER flag; TRANSFER-ACK
is raised, with the POWER flag, where the mark is set, no claim is held and no pump is within its stop window; a request
that drops clears TRANSFER-ACK and the mark and derives the source afresh. -/
def Obligations.SourceAndTransfer : Prop :=
  (∀ s : State,
     let u := deriveSource s
     let old := s.power.source
     let new := if s.power.mainsOk.state then Source.mains else if s.power.genOn.state then .generator else .none
     let lines := [byte ((if s.power.mainsOk.state then 1 else 0) + (if s.power.genOn.state then 2 else 0) +
       (if s.power.transferReq.state then 4 else 0))]
     let edges : List Edge :=
       (if old = .mains then [⟨.mainsFail, 0, some lines⟩] else []) ++
       (if new = .none then [⟨.noPower, 0, some lines⟩] else []) ++
       (if old = .none then [⟨.noPower, 0, none⟩] else []) ++
       (if new = .mains then [⟨.mainsFail, 0, none⟩] else [])
     (old = new → u = s) ∧
     (old ≠ new → u = edges.foldl (fun t e => offerEdge e t)
       (setFlag .power { s with power := { s.power with source := new } })) ∧
     budget s = (if s.power.transferring then 0 else match s.power.source with
       | .mains => s.running.mainsUnits
       | .generator => s.running.genUnits
       | .none => 0)) ∧
  (∀ s : State, s.power.transferring = false →
     (s.power.mainsOk.timer = some 0 → exec (.powerLineDebounceExpiry .mainsOk) s =
       .next (conclude (deriveSource { s with power := { s.power with mainsOk := lineTaken s.power.mainsOk } }))) ∧
     (s.power.genOn.timer = some 0 → exec (.powerLineDebounceExpiry .genOn) s =
       .next (conclude (deriveSource { s with power := { s.power with genOn := lineTaken s.power.genOn } }))) ∧
     (∀ l, l = .mainsOk ∨ l = .genOn → (s.power.line l).timer = some 0 →
       ∃ t, exec (.powerLineDebounceExpiry l) s = .next t ∧
         t.power.source = (if t.power.mainsOk.state then .mains else if t.power.genOn.state then .generator else .none) ∧
         t.power.line l = lineTaken (s.power.line l) ∧
         (t.power.source ≠ s.power.source → t.port.flags.power = true) ∧
         t.power.transferring = false ∧ t.level = s.level ∧ t.balance = s.balance ∧ t.store = s.store)) ∧
  (∀ s : State, s.power.transferring = true →
     (∀ l, l = .mainsOk ∨ l = .genOn → (s.power.line l).timer = some 0 →
       ∃ t, exec (.powerLineDebounceExpiry l) s = .next t ∧ t.power.source = s.power.source ∧
         t.power.line l = lineTaken (s.power.line l) ∧ t.power.transferring = true)) ∧
  (∀ s : State, s.power.transferReq.timer = some 0 →
     (s.power.transferReq.line = true → s.power.transferring = false →
       ∃ t, exec (.powerLineDebounceExpiry .transferReq) s = .next t ∧
         t.power.transferring = true ∧ t.power.source = s.power.source ∧ budget t = 0 ∧ t.port.flags.power = true ∧
         t.level = s.level ∧ t.balance = s.balance ∧ t.store = s.store) ∧
     (s.power.transferReq.line = false → s.power.transferring = true →
       ∃ t, exec (.powerLineDebounceExpiry .transferReq) s = .next t ∧
         t = conclude (deriveSource (setFlag .power { s with power := { s.power with
           transferReq := lineTaken s.power.transferReq, ack := false, transferring := false } })) ∧
         t.power.transferring = false ∧ t.port.flags.power = true ∧ t.power.ack = false ∧
         t.power.source =
           (if s.power.mainsOk.state then .mains else if s.power.genOn.state then .generator else .none) ∧
         t.level = s.level ∧ t.balance = s.balance ∧ t.store = s.store)) ∧
  (∀ s : State,
     let rest := s.power.transferring = true ∧ s.power.ack = false ∧ claimSum s = 0 ∧
       ∀ p, ¬((s.pump p).seq = .stopping ∧ (s.pump p).stopWindow ≠ none)
     (rest → testAck s = setFlag .power { s with power := { s.power with ack := true } }) ∧ (¬rest → testAck s = s))

/-- The claim queue (R85): a claimant asks once; a rake of a BLOCKED screen joins behind the blocked rakes and ahead of the
rest, any other claimant at the tail; leaving closes the queue up in its order. At a period end a queued rake whose screen
becomes BLOCKED moves to that place.

Free is the budget less the load of the pumps that draw without a grant, not below 0, less the claims (R83). The head is
granted where free holds its units (R86), a pump's besides only with no pump STARTING and the stagger timer stopped (R87).

What an event does next, in the order that is the model's choice (assumption 12): claims shed while free is negative (R88),
a RUNNING pump that is not called and has its minimum run behind it stops (R66), a QUEUED one that is not called leaves the
queue (R62), a called IDLE one joins it (R62), each in ladder order, then the head's grant, and, where none can be made, the
test of a rake that has entered IDLE (R102), so that a claim it released reaches the head before it queues afresh (R84, R86, assumption 44).

Claims go one at a time and whole, from the rakes of screens not BLOCKED, 2 before 1, then the pumps latest in the ladder
first, then the other rakes, only until free is 0 or more (R88). The first shed mark set raises POWER-SHED with the units
short, and the last one cleared returns it (R89); each shed sets the POWER flag (R93), stops its pump or pauses its
rake.

The queue holds each claimant at most once, a pump exactly while it is QUEUED and a rake exactly while it is WAITING or
PAUSED (R85). Every step keeps that, with what it rests on: a pump queued or on duty is in AUTO (R67), a claim is held only
in the stages that draw (R61, R100), a rake that waits, or that holds a claim, has an operation, a PAUSED one a saved stage
(R110), and a motor is driven and a jam timer runs only in a motor stage (R98, R112). The reset state has it. -/
def Obligations.ClaimQueueOrder : Prop :=
  (∀ (s : State) (c : Claimant),
    (c ∈ s.power.queue → joinQueue c s = s) ∧
    (c ∉ s.power.queue → isBlockedRake s c = false → (joinQueue c s).power.queue = s.power.queue ++ [c]) ∧
    (c ∉ s.power.queue → isBlockedRake s c = true → ∃ a b, s.power.queue = a ++ b ∧
      (joinQueue c s).power.queue = a ++ c :: b ∧ (∀ x ∈ a, isBlockedRake s x = true) ∧
      ∀ x, b.head? = some x → isBlockedRake s x = false) ∧
    (s.power.queue.Nodup → (joinQueue c s).power.queue.Nodup ∧ c ∉ (leaveQueue c s).power.queue) ∧
    (leaveQueue c s).power.queue = s.power.queue.filter (· ≠ c) ∧
    joinQueue c s = s.onPower (fun w => { w with queue := (joinQueue c s).power.queue }) ∧
    leaveQueue c s = s.onPower (fun w => { w with queue := (leaveQueue c s).power.queue }) ∧
    (∀ p, isBlockedRake s (.pump p) = false) ∧ ∀ n, isBlockedRake s (.rake n) = (s.screen n).blocked) ∧
  (∀ (s : State) (n : Ix2), let b := blockedAfter s.running n (s.screen n)
    let u := s.onScreen n fun a => { a with blocked := b }
    testBlocked n s = if b = true ∧ (s.screen n).blocked = false ∧ .rake n ∈ s.power.queue
      then joinQueue (.rake n) (leaveQueue (.rake n) u) else u) ∧
  (∀ s : State,
    let draws := fun p => let q := s.pump p
      if (q.seq = .hand ∧ q.feedback.state = true) ∨ q.seq = .runOn then s.running.pumpUnits p else 0
    let held := fun p => ((s.pump p).claim.getD 0)
    let rake := fun n => ((s.screen n).claim.getD 0)
    externalLoad s = draws .i1 + draws .i2 + draws .i3 + draws .i4 + draws .i5 + draws .i6 ∧
    claimSum s = held .i1 + held .i2 + held .i3 + held .i4 + held .i5 + held .i6 + (rake .i1 + rake .i2) ∧
    free s = ((budget s - externalLoad s : Nat) : Int) - (claimSum s : Int) ∧
    (∀ n, grantable s (.rake n) = true ↔ (s.running.rakeUnits n : Int) ≤ free s) ∧
    (∀ p, grantable s (.pump p) = true ↔ (s.running.pumpUnits p : Int) ≤ free s ∧
      (∀ q, (s.pump q).seq ≠ .starting) ∧ s.power.stagger = none) ∧
    (∀ p, grant (.pump p) s = grantPump p (leaveQueue (.pump p) s)) ∧
    ∀ n, grant (.rake n) s = grantRake n (leaveQueue (.rake n) s)) ∧
  (∀ (s : State) (a b : List Ix6) (p : Ix6),
    let stops := fun x => (s.pump x).seq = .running ∧ (s.pump x).called = false ∧ (s.pump x).minRun = none
    let leaves := fun x => (s.pump x).seq = .queued ∧ (s.pump x).called = false
    let joins := fun x => (s.pump x).seq = .idle ∧ (s.pump x).called = true
    let none_ := fun (P : Ix6 → Prop) => ∀ x ∈ s.duty.ladder, ¬P x
    let first := fun (P : Ix6 → Prop) => s.duty.ladder = a ++ p :: b ∧ (∀ x ∈ a, ¬P x) ∧ P p
    (free s < 0 → claimSum s ≠ 0 → nextMove s = some shedAll) ∧
    (0 ≤ free s ∨ claimSum s = 0 →
      (first stops → nextMove s = some (stopPump .callWithdrawn p)) ∧
      (none_ stops →
        (first leaves → nextMove s = some fun t => clearShed (.pump p) (leaveQueue (.pump p)
          (t.onPump p fun q => { q with seq := .idle }))) ∧
        (none_ leaves →
          (first joins → nextMove s = some fun t => joinQueue (.pump p) (t.onPump p fun q => { q with seq := .queued })) ∧
          (none_ joins →
            (∀ c rest, s.power.queue = c :: rest → grantable s c = true → nextMove s = some (grant c)) ∧
            ((∀ c, s.power.queue.head? = some c → grantable s c = false) →
              ((s.screen .i1).untested = true → nextMove s = some (testIdle .i1)) ∧
              ((s.screen .i1).untested = false → (s.screen .i2).untested = true → nextMove s = some (testIdle .i2)) ∧
              ((s.screen .i1).untested = false → (s.screen .i2).untested = false → nextMove s = none))))))) ∧
  (∀ s : State, let t := shedAll s
    let rakes := fun (blocked : Bool) => ([.i2, .i1] : List Ix2).filter fun n => (s.screen n).blocked = blocked
    let order := (rakes false).map Claimant.rake ++ s.duty.ladder.reverse.map .pump ++ (rakes true).map .rake
    let held := fun (u : State) (l : List Claimant) => (l.map fun c => (claimOf u c).getD 0).sum
    (∀ p, (s.pump p).claim ≠ none → (s.pump p).seq = .starting ∨ (s.pump p).seq = .running) →
    LadderOk s.duty.ladder →
    t = order.foldl (fun u c =>
      if free u < 0 ∧ claimOf u c ≠ none then shed (free s).natAbs c u else u) s ∧
    ∃ k, k ≤ order.length ∧ (∀ c ∈ order.take k, claimOf t c = none) ∧
      (∀ c ∈ order.drop k, claimOf t c = claimOf s c) ∧
      (k ≠ 0 → free s + (held s (order.take (k - 1)) : Int) < 0) ∧
      free t = free s + (held s (order.take k) : Int) ∧ (k < order.length → 0 ≤ free t)) ∧
  (∀ (s : State) (short : Nat) (c : Claimant),
    let marked := fun (v : Bool) => match c with
      | .pump p => s.onPump p fun q => { q with shedMark := v }
      | .rake n => s.onScreen n fun q => { q with shedMark := v }
    let any := fun (t : State) => (∃ p, (t.pump p).shedMark = true) ∨ ∃ n, (t.screen n).shedMark = true
    (any s → markShed c short s = marked true) ∧
    (¬any s → markShed c short s = raise ⟨.powerShed, 0⟩ .minor [byte short] (marked true)) ∧
    (any s → ¬any (marked false) → clearShed c s = returnKey ⟨.powerShed, 0⟩ (marked false) ∧
      shedEnds c s = [⟨.powerShed, 0, none⟩]) ∧
    ((any s → any (marked false)) → clearShed c s = marked false ∧ shedEnds c s = []) ∧
    (∀ p, c = .pump p → shed short c s = stopPump .shed p (setFlag .power (markShed c short s))) ∧
    (∀ n, c = .rake n → shed short c s = pauseRake n (setFlag .power (markShed c short s)))) ∧
  QueueOk State.reset ∧ (∀ s t : State, QueueOk s → step s = .next t → QueueOk t)

/-! Rakes -/

/-- The rake commands (R104, R106 to R108): each is answered by its table, and OUT-OF-RANGE where it names no screen.

What the rake commands do at rest and when they are refused (R99, R104, R106 to R108): from IDLE the operation is
begun and the rake waits in the queue; a LOCKED or unhomed rake is WRONG-STATE for CYCLE, POSITION and FINISH, and an unhomed
one not LOCKED ALREADY for HOME; a target above max_travel or a count above 5 is OUT-OF-RANGE; POSITION 0 in IDLE completes
at once, HELD at 0. From HELD, CYCLE and HOME return RAKE-HELD and begin; POSITION and FINISH are WRONG-STATE. A HOME with
HOME made completes at once.

With an operation in hand (R104, R106 to R109): CYCLE on a CYCLE sets the pending flag, ALREADY where it is set; CYCLE on a
FINISH and FINISH on either let the cycle in hand carry on, the FINISH superseded; HOME on a HOME is ALREADY; any other
writes the old operation's SUPERSEDED record, opens the grab of a cycle, ends its timers, and begins its own first stage on
the claim held, or goes on waiting in its place of the queue. That a carried-on cycle that is PAUSED keeps PAUSED, its saved
stage and its timers is the model's choice (assumption 21). -/
def Obligations.RakeCommands : Prop :=
  (∀ (s : State) (b k : Byte) (w : BitVec 16), s.portIdle →
     (∀ n, b.toNat = n.num →
       (let r := takeRakeCycle n (s.taken 0x21 [b])
        exec (.rakeCycle b) s = .next (conclude (reply r.1 [] r.2))) ∧
       (let r := takeRakeHome n (s.taken 0x22 [b])
        exec (.rakeHome b) s = .next (conclude (reply r.1 [] r.2))) ∧
       (let r := takeRakePosition n w.toNat (s.taken 0x23 (b :: bytes2 w.toNat))
        exec (.rakePosition b w) s = .next (conclude (reply r.1 [] r.2))) ∧
       (let r := takeRakeFinish n k.toNat (s.taken 0x24 [b, k])
        exec (.rakeFinish b k) s = .next (conclude (reply r.1 [] r.2)))) ∧
     ((∀ n : Ix2, b.toNat ≠ n.num) →
       exec (.rakeCycle b) s = .next (s.answered [6]) ∧ exec (.rakeHome b) s = .next (s.answered [6]) ∧
       exec (.rakePosition b w) s = .next (s.answered [6]) ∧ exec (.rakeFinish b k) s = .next (s.answered [6]))) ∧
  (∀ (s : State) (n : Ix2) (p k : Nat), let sc := s.screen n
     let begun := fun (t : State) (op : Operation) => joinQueue (.rake n) (t.onScreen n fun a => { a with
       rake := .waiting, op := op, retries := 0, cycles := 0, saved := none, up := false, down := false })
     let count := if k = 0 then s.running.finishDefault n else k
     (sc.rake = .locked ∨ sc.homed = false → takeRakeCycle n s = (.wrongState, s)) ∧
     (sc.rake = .locked → takeRakeHome n s = (.wrongState, s)) ∧
     (sc.rake ≠ .locked → sc.rake = .idle ∨ sc.homed = false → takeRakeHome n s = (.already, s)) ∧
     (s.running.maxTravel n < p → takeRakePosition n p s = (.outOfRange, s)) ∧
     (p ≤ s.running.maxTravel n → sc.rake = .locked ∨ sc.rake = .held ∨ sc.homed = false →
       takeRakePosition n p s = (.wrongState, s)) ∧
     (5 < k → takeRakeFinish n k s = (.outOfRange, s)) ∧
     (k ≤ 5 → sc.rake = .locked ∨ sc.rake = .held ∨ sc.homed = false → takeRakeFinish n k s = (.wrongState, s)) ∧
     (sc.rake = .idle → sc.homed = true →
       takeRakeCycle n s = (.done, begun s .cycle) ∧
       (0 < p → p ≤ s.running.maxTravel n → takeRakePosition n p s = (.done, begun s (.position p))) ∧
       takeRakePosition n 0 s = (.done, finishPosition n (s.onScreen n fun a => { a with retries := 0, cycles := 0 })) ∧
       (k ≤ 5 → takeRakeFinish n k s = (.done, begun s (.finish (count - 1))))) ∧
     (sc.rake = .held → sc.homed = true → let freed := returnKey ⟨.rakeHeld, n.num⟩ s
       takeRakeCycle n s = (.done, begun freed .cycle) ∧
       takeRakeHome n s = (.done, if sc.home.state then homeAtOnce n freed else begun freed (.home false)))) ∧
  (∀ (s : State) (n : Ix2) (p k : Nat), let sc := s.screen n
     sc.rake ≠ .locked → sc.rake ≠ .idle → sc.rake ≠ .held → sc.homed = true →
     let gone := fun (code cycles : Nat) => writeCompletion n code .superseded cycles s
     let count := if k = 0 then s.running.finishDefault n else k
     (sc.op = .cycle →
       takeRakeCycle n s = (if sc.pending then (.already, s)
         else (.done, s.onScreen n fun a => { a with pending := true })) ∧
       (k ≤ 5 → takeRakeFinish n k s = (.done, s.onScreen n fun a => { a with op := .finish (count - 1) }))) ∧
     (∀ j, sc.op = .finish j →
       takeRakeCycle n s = (.done, (gone 4 sc.cycles).onScreen n fun a => { a with op := .cycle }) ∧
       (k ≤ 5 → takeRakeFinish n k s = (.done, (gone 4 sc.cycles).onScreen n fun a =>
         { a with op := .finish (count - 1), cycles := 0 }))) ∧
     (sc.op.isCycle = false → takeRakeCycle n s = (.done, supersede n .cycle s) ∧
       (k ≤ 5 → takeRakeFinish n k s = (.done, supersede n (.finish (count - 1)) s))) ∧
     (p ≤ s.running.maxTravel n → takeRakePosition n p s = (.done, supersede n (.position p) s)) ∧
     (sc.op = .home true ∨ sc.op = .home false → takeRakeHome n s = (.already, s)) ∧
     (sc.op ≠ .home true → sc.op ≠ .home false →
       (sc.home.state = false → takeRakeHome n s = (.done, supersede n (.home false) s)) ∧
       (sc.home.state = true → takeRakeHome n s = (.done, homeAtOnce n ((gone sc.op.code sc.cycles).onScreen n fun a =>
         { a with dwell := none, reverse := none, jamTimer := none, saved := none }))))) ∧
  (∀ (s : State) (n : Ix2) (m : Nat) (op : Operation), let sc := s.screen n
     let u := (writeCompletion n sc.op.code .superseded sc.cycles s).onScreen n fun a => { a with
       grip := if sc.op.isCycle then false else sc.grip, dwell := none, reverse := none, jamTimer := none
       saved := none, op := op, retries := 0, cycles := 0 }
     supersede n op s = (if sc.rake = .waiting ∨ sc.rake = .paused
       then u.onScreen n fun a => { a with rake := .waiting } else firstStage n u) ∧
     homeAtOnce n s = finishHoming n (clearShed (.rake n) (leaveQueue (.rake n) (s.onScreen n fun a =>
       { a with op := .home false, retries := 0, cycles := 0 }))) ∧
     [Operation.none, .cycle, .home true, .home false, .position m, .finish m].map Operation.code = [0, 1, 2, 2, 3, 4] ∧
     [Operation.none, .cycle, .home true, .home false, .position m, .finish m].map Operation.isCycle =
       [false, true, false, false, false, true])

/-- A counted pulse (R96, R107, R111): down it adds one to the position and up it takes one away, not below 0; a pulse past
max_travel and the margin, down or by the upward count of an UP leg, locks the rake for travel; any other restarts the jam
timer and ends a POSITION that it brings to its target; with both motors off it counts nothing. That the restart uses the
jam_time in force, and that only a pulse brings a POSITION to its target, is the model's choice (assumptions 35 and 36).

The dwells and the timers of a rake (R101, R102, R112): the grip dwell begins the climb, the discharge dwell ends the
cycle, a jam reverses until the retries are used up and then locks, and a reverse ends in the stage it interrupted.

HOME and BOTTOM as their debounce makes them (R101, R105, R107, R112): HOME ends a homing, a climb, a POSITION going up and a
reverse, with position 0 going up; BOTTOM ends a descent, a POSITION going down and a reverse. The overload raises its
condition and locks the rake unless it is held; normal, it releases what has both halves (R113, R114). The count of cycles
done stays at 5, the model's choice (assumption 39), and edges that no rule orders go in slot order (assumption 14). An operation that
ends: HOME at position 0, homed, in IDLE; POSITION in HELD, which raises RAKE-HELD; IDLE begins a CYCLE where the pending
flag or BLOCKED is set (R102, R105, R107), at its test after the release's grants (R84, assumption 44). That either limit ends a REVERSING is read by inference (assumption 20).

The screens at a period end (R97, R103): a differential is formed while both its channels are VALID and is stale else;
BLOCKED follows it with 50 mm of hysteresis, and a stale one leaves it; a differential at trigger_level, BLOCKED, or in IDLE
the class's interval since the last cycle triggers a CYCLE in IDLE and sets the pending flag else. Screen 1 goes first, the
model's choice (assumption 13). -/
def Obligations.RakeMotion : Prop :=
  (∀ (s : State) (n : Ix2), let sc := s.screen n
     let limit := s.running.maxTravel n + max (s.running.maxTravel n / 20) 10
     let locked := fun (t : State) => lockRake n .travel
       ((if sc.leg = .up then (1 : Byte) else 0) :: bytes2 (t.screen n).position) t
     let counted := fun (t : State) => let u := t.onScreen n fun a => { a with
         jamTimer := some (100 * s.running.jamTime n) }
       if sc.rake = .positioning ∧ sc.op = .position (t.screen n).position then finishPosition n u else u
     (sc.up = false → sc.down = false → exec (.pulse n) s = .next s) ∧
     (sc.up = true → let count := if sc.leg = .up then sc.upCount + 1 else sc.upCount
       let u := s.onScreen n fun a => { a with position := sc.position - 1, upCount := count }
       exec (.pulse n) s = .next (conclude (if sc.legLimit < count then locked u else counted u))) ∧
     (sc.up = false → sc.down = true →
       let u := s.onScreen n fun a => { a with
         position := min (limit) (sc.position + 1)
         upCount := if sc.leg = .up then sc.upCount - 1 else sc.upCount }
       exec (.pulse n) s = .next (conclude
         (if limit < sc.position + 1 then locked u else counted u)))) ∧
  (∀ (s : State) (n : Ix2), let sc := s.screen n
     let limit := s.running.maxTravel n + max (s.running.maxTravel n / 20) 10
     let jammed := fun (t : State) => lockRake n .jam (bytes2 sc.position ++ [byte (t.screen n).retries]) t
     (sc.dwell = some 0 → sc.rake = .gripping →
       exec (.gripDwellExpiry n) s = .next (conclude (checkLimit n (s.onScreen n fun a => { a with
         dwell := none, leg := .up, upCount := 0, legLimit := limit
         rake := .ascending, up := true, down := false, jamTimer := some (100 * s.running.jamTime n) })))) ∧
     (sc.dwell = some 0 → sc.rake = .discharging → let done := s.onScreen n fun a => { a with
         dwell := none, cycles := min 5 (a.cycles + 1), lastCycleEnd := s.clock.uptime.secs }
       (∀ k, sc.op = .finish (k + 1) → exec (.dischargeDwellExpiry n) s =
         .next (conclude (checkLimit n (done.onScreen n fun a => { a with
           op := .finish k, leg := .down, upCount := 0, legLimit := limit
           rake := .descending, up := false, down := true, jamTimer := some (100 * s.running.jamTime n) })))) ∧
       (sc.op = .finish 0 → exec (.dischargeDwellExpiry n) s =
         .next (conclude (enterHeld n (writeCompletion n 4 .complete (min 5 (sc.cycles + 1)) done)))) ∧
       (sc.op = .cycle → exec (.dischargeDwellExpiry n) s =
         .next (conclude (enterIdle n (writeCompletion n 1 .complete 1 done))))) ∧
     (sc.jamTimer = some 0 → sc.rake ≠ .reversing → sc.retries < s.running.jamRetries n →
       let d := if sc.up then Dir.up else Dir.down
       exec (.jamTimerExpiry n) s = .next (conclude (s.onScreen n fun a => { a with
         rake := .reversing, retries := sc.retries + 1, interrupted := d
         up := decide (d = .down), down := decide (d = .up)
         reverse := some (100 * s.running.reverseTime n), jamTimer := some (100 * s.running.jamTime n) }))) ∧
     (sc.jamTimer = some 0 → sc.rake = .reversing →
       exec (.jamTimerExpiry n) s = .next (conclude (jammed (s.onScreen n fun a =>
         { a with up := false, down := false, jamTimer := none })))) ∧
     (sc.jamTimer = some 0 → sc.rake ≠ .reversing → s.running.jamRetries n ≤ sc.retries →
       exec (.jamTimerExpiry n) s = .next (conclude (jammed (s.onScreen n fun a =>
         { a with up := false, down := false, jamTimer := none, retries := sc.retries + 1 })))) ∧
     (sc.reverse = some 0 → sc.rake = .reversing →
       exec (.reverseTimerExpiry n) s = .next (conclude (endReverse n s))) ∧
     endReverse n s = s.onScreen n (fun a => { a with
         rake := (match sc.op with
           | .home _ => .homing
           | .position _ => .positioning
           | _ => if sc.interrupted = .down then .descending else .ascending)
         reverse := none, up := decide (sc.interrupted = .up), down := decide (sc.interrupted = .down)
         jamTimer := some (100 * s.running.jamTime n) })) ∧
  (∀ (s : State) (n : Ix2), let sc := s.screen n
     let zeroed := fun (t : State) => t.onScreen n fun a => { a with position := 0 }
     (sc.home.timer = some 0 → let u := s.onScreen n fun a => { a with home := lineTaken a.home }
       exec (.rakeInputDebounceExpiry n .home) s = .next (conclude (if sc.home.line = false then u else
         match sc.rake with
         | .homing => finishHoming n u
         | .ascending => enterDischarging n u
         | .positioning => if sc.up then finishPosition n (zeroed u) else u
         | .reversing => endReverse n (if sc.up then zeroed u else u)
         | _ => u))) ∧
     (sc.bottom.timer = some 0 → let u := s.onScreen n fun a => { a with bottom := lineTaken a.bottom }
       exec (.rakeInputDebounceExpiry n .bottom) s = .next (conclude (if sc.bottom.line = false then u else
         match sc.rake with
         | .descending => enterGripping n u
         | .positioning => if sc.down then finishPosition n u else u
         | .reversing => endReverse n u
         | _ => u))) ∧
     (sc.overload.timer = some 0 → let u := s.onScreen n fun a => { a with overload := lineTaken a.overload }
       exec (.rakeInputDebounceExpiry n .overload) s = .next (conclude (if sc.overload.line = false then releaseRake n u
         else if sc.locks.overload then u else lockRake n .overload [byte sc.rake.code] u)))) ∧
  (∀ (s : State) (n : Ix2), let sc := s.screen n
     let rest := fun (st : RakeState) => s.onScreen n fun a => { a with
       rake := st, op := .none, saved := none, claim := none, grip := false, up := false, down := false
       jamTimer := none, dwell := none, reverse := none }
     enterIdle n s = (rest .idle).onScreen n (fun a => { a with untested := true }) ∧
     (let tested := s.onScreen n fun a => { a with untested := false }
      testIdle n s = if sc.rake = .idle ∧ (sc.pending = true ∨ sc.blocked = true) then
        joinQueue (.rake n) (tested.onScreen n fun a => { a with
          rake := .waiting, op := .cycle, retries := 0, cycles := 0, saved := none, up := false, down := false })
        else tested) ∧
     enterHeld n s = raise ⟨.rakeHeld, n.num⟩ .advisory (bytes2 sc.position) (rest .held) ∧
     finishPosition n s = enterHeld n (writeCompletion n 3 .complete sc.cycles s) ∧
     finishHoming n s = enterIdle n (writeCompletion n 2 .complete sc.cycles (s.onScreen n fun a => { a with
       position := 0, homed := true, up := false, down := false, jamTimer := none }))) ∧
  (∀ (s : State) (n : Ix2), let sc := s.screen n
     let inlet := s.level.channels.get .i1
     let down := s.level.channels.get (match n with | .i1 => .i2 | .i2 => .i3)
     let valid := inlet.period = .valid ∧ down.period = .valid
     formDifferential n s = s.onScreen n (fun a => { a with
       diffStale := decide ¬valid
       differential := if valid then inlet.held.getD 0 - down.held.getD 0 else sc.differential }) ∧
     (let b := blockedAfter s.running n sc
      (sc.diffStale = true → b = sc.blocked) ∧
      (sc.diffStale = false →
        b = if s.running.blockedLevel n ≤ sc.differential then true
          else if sc.differential + 50 ≤ s.running.blockedLevel n then false else sc.blocked)) ∧
     (let every := match s.balance.cls with
        | .dry => s.running.intervalDry n
        | .wet => s.running.intervalWet n
        | .storm => s.running.intervalStorm n
      let due := (sc.diffStale = false ∧ s.running.triggerLevel n ≤ sc.differential) ∨ sc.blocked = true ∨
        (sc.rake = .idle ∧ 60 * every ≤ secondsSince s.clock.uptime.secs sc.lastCycleEnd)
      testTriggers n s = if ¬due then s else if sc.rake = .idle then
          joinQueue (.rake n) (s.onScreen n fun a => { a with
            rake := .waiting, op := .cycle, retries := 0, cycles := 0, saved := none, up := false, down := false })
        else s.onScreen n fun a => { a with pending := true })) ∧
  (∀ s : State,
     formScreens s = testBlocked .i2 (formDifferential .i2 (testBlocked .i1 (formDifferential .i1 s))) ∧
     testAllTriggers s = testTriggers .i2 (testTriggers .i1 s) ∧
     (let t := formScreens s
      let edge := fun n : Ix2 => if (s.screen n).blocked = (t.screen n).blocked then [] else
        [(⟨.screenBlocked, n.num, if (t.screen n).blocked then some (bytes2 (t.screen n).differential) else none⟩ : Edge)]
      blockedEdges s t = edge .i1 ++ edge .i2))

/-- Entry to LOCKED (R98, R111 to R113): the reason joins the lockout set with its mark clear, the motor and the grab go
off, the claim, the operation and the timers go, a waiting rake leaves the queue, and the completion record tells how the
operation ended.

The completion record (R116): a write sets its overwritten flag exactly where the last record was unread and sets the
SCREEN flag; SENSE SCREEN gives the record and empties it, or answers NOT-FOUND, or OUT-OF-RANGE. -/
def Obligations.RakeLockoutAndCompletion : Prop :=
  (∀ (s : State) (n : Ix2) (r : RakeReason) (x : List Byte), let sc := s.screen n
     let t := lockRake n r x s
     let waits := sc.rake = .waiting ∨ sc.rake = .paused
     (sc.rake ≠ .locked →
       t.screen n = { sc with
         rake := .locked, op := .none, saved := none, claim := none, grip := false, up := false, down := false
         jamTimer := none, dwell := none, reverse := none
         locks := sc.locks.put r true, acks := sc.acks.put r false
         completion := some ⟨sc.completion.isSome, sc.op.code, r.outcome, sc.position, sc.cycles, s.clock.station⟩
         shedMark := if waits then false else sc.shedMark } ∧
       (waits → .rake n ∉ t.power.queue) ∧ t.port.flags.screen = true) ∧
     (sc.rake = .locked → t.screen n = { sc with locks := sc.locks.put r true, acks := sc.acks.put r false }) ∧
     (∀ m, m ≠ n → t.screen m = s.screen m) ∧ t.pumps = s.pumps ∧ t.level = s.level ∧ t.balance = s.balance ∧
     t.store = s.store) ∧
  (∀ (s : State) (n : Ix2) (b : Byte),
     (∀ (op : Nat) (o : RakeOutcome) (k : Nat), let t := writeCompletion n op o k s
       (t.screen n).completion = some ⟨(s.screen n).completion.isSome, op, o, (s.screen n).position, k, s.clock.station⟩ ∧
       t.port.flags.screen = true) ∧
     (s.portIdle → b.toNat = n.num →
       (∀ c, (s.screen n).completion = some c → exec (.senseScreen b) s =
         .next ((s.onScreen n fun a => { a with completion := none }).answered (0 :: c.image))) ∧
       ((s.screen n).completion = none → exec (.senseScreen b) s = .next (s.answered [3]))) ∧
     (s.portIdle → (∀ m : Ix2, b.toNat ≠ m.num) → exec (.senseScreen b) s = .next (s.answered [6])))

/-! The Condition Table -/

/-- A raise on a seated record (R123, R124): the state moves by its table, the severity and the extra data are the raise's,
the raise count rises and saturates, the acknowledging party is cleared where the record was no longer active, the record
is no longer town-current, and it counts once in raised-since-clear. No other slot moves.

A raise with no record and a place for one (R121, R126): the lowest vacant general slot takes it, or, where none is
vacant, the slot whose DORMANT record has the smallest change order; the slot's generation advances (255 goes to 1), and
the new record is RAISED, unshelved, acknowledged by nobody, raised once, and owed to the town in place of any gone
notice.

A raise with no place (R127, R132, R133): it is held behind the entries of equal or higher severity, in a full list
only in place of a last entry of lower severity; a key that waits already has its extra data replaced; it is counted as a
suppression of its severity, and TABLE-SATURATED's cause is present, its record raised at the first and changed by the
others with the counts as its data; no general slot moves.

A record that enters RAISED (R147, R187) ends the silence where it is unshelved and at or above horn_threshold, and wakes a
QUIET link where it is MAJOR or CRITICAL, shelved or not; nothing else of a raise does.

Changes that no rule orders go one by one in slot order (R123): the next is that in the lowest slot as the table then
stands, the slot of its record, or the place that a raise with no record takes, or slot 0, whose record a suppression
changes. Where a rule takes some changes stage after stage and leaves others free, the next is the lowest of the stage in
hand and the free ones. That a return that changes no record comes last, and that changes of one slot go as they come, is
the model's choice (assumption 14). -/
def Obligations.RaisesOnTheTable : Prop :=
  (∀ (s : State) (k : Key) (sev : Severity) (x : List Byte) (i : Nat) (r : Record),
     s.table.seatedAt? k = some i → (s.table.slot i).record = some r →
     let t := raise k sev x s
     let again := r.state = .returned ∨ r.state = .dormant
     t.table.slot i = { s.table.slot i with
       record := some { r with
         state := if again then .raised else r.state
         severity := sev, extra := x, raiseCount := min 255 (r.raiseCount + 1)
         ackBy := if again then .nobody else r.ackBy
         lastChange := s.clock.station, changeOrder := nextOrder s.table.changeOrder, townCurrent := false } } ∧
     (∀ j, j ≠ i → t.table.slot j = s.table.slot j) ∧
     t.table.waiting = s.table.waiting ∧ t.table.changeOrder = nextOrder s.table.changeOrder ∧
     t.table.raisedSinceClear = min 4294967295 (s.table.raisedSinceClear + 1) ∧ t.port.flags.condition = true ∧
     (¬again → t.ann = s.ann ∧ t.link = s.link) ∧
     (again → t.ann = { s.ann with
         silence := s.ann.silence && (r.shelved || decide (sev.code < s.running.hornThreshold)) } ∧
       t.link = if 2 ≤ sev.code then (wakeLink true s).link else s.link)) ∧
  (∀ (s : State) (k : Key) (sev : Severity) (x : List Byte) (i : Nat),
     TableOk s.table → s.table.seatedAt? k = none → s.table.waitsAt? k = none → 1 ≤ i → i ≤ 47 →
     (((s.table.slot i).record = none ∧ ∀ j, 1 ≤ j → j < i → (s.table.slot j).record ≠ none) ∨
       ((∀ j, 1 ≤ j → j ≤ 47 → (s.table.slot j).record ≠ none) ∧
         ∃ r, (s.table.slot i).record = some r ∧ r.state = .dormant ∧ ∀ j, 1 ≤ j → j ≤ 47 → j ≠ i →
           ∀ q, (s.table.slot j).record = some q → q.state = .dormant → r.changeOrder < q.changeOrder)) →
     let t := raise k sev x s
     let g := (s.table.slot i).gen
     t.table.slot i = ⟨if g < 255 then g + 1 else 1,
       some ⟨k, sev, .raised, false, none, .nobody, 1, s.clock.station, s.clock.station,
         nextOrder s.table.changeOrder, x, false⟩, none⟩ ∧
     (∀ j, j ≠ i → t.table.slot j = s.table.slot j) ∧ t.table.waiting = s.table.waiting ∧
     t.table.raisedSinceClear = min 4294967295 (s.table.raisedSinceClear + 1) ∧ t.port.flags.condition = true ∧
     t.ann = { s.ann with silence := s.ann.silence && decide (sev.code < s.running.hornThreshold) } ∧
     t.link = (if 2 ≤ sev.code then (wakeLink true s).link else s.link)) ∧
  (∀ (s : State) (k : Key) (sev : Severity) (x : List Byte), s.table.seatedAt? k = none →
     (s.table.waitsAt? k = none → s.table.place? = none) →
     let t := raise k sev x s
     let w : Waiting := ⟨k, sev, x, s.clock.station⟩
     let counts := s.table.suppressed.add sev
     let behind := fun (l m : List Waiting) => ∃ a b, l = a ++ b ∧ m = a ++ w :: b ∧
       (∀ e ∈ a, sev.code ≤ e.severity.code) ∧ ∀ e, b.head? = some e → e.severity.code < sev.code
     (s.table.waitsAt? k = none → s.table.waiting.length < 16 → behind s.table.waiting t.table.waiting) ∧
     (s.table.waitsAt? k = none → 16 ≤ s.table.waiting.length → ∀ l e, s.table.waiting = l ++ [e] →
       (e.severity.code < sev.code → behind l t.table.waiting) ∧
       (sev.code ≤ e.severity.code → t.table.waiting = s.table.waiting)) ∧
     (s.table.waitsAt? k ≠ none →
       t.table.waiting = s.table.waiting.map fun e => if e.key = k then { e with extra := x } else e) ∧
     t.table.saturated = true ∧ t.table.suppressed = counts ∧
     (counts.advisory = (if sev = .advisory then min 65535 (s.table.suppressed.advisory + 1)
         else s.table.suppressed.advisory) ∧
       counts.minor = (if sev = .minor then min 65535 (s.table.suppressed.minor + 1) else s.table.suppressed.minor) ∧
       counts.major = (if sev = .major then min 65535 (s.table.suppressed.major + 1) else s.table.suppressed.major) ∧
       counts.critical = (if sev = .critical then min 65535 (s.table.suppressed.critical + 1)
         else s.table.suppressed.critical)) ∧
     (let data := bytes2 counts.advisory ++ bytes2 counts.minor ++ bytes2 counts.major ++ bytes2 counts.critical
      (s.table.saturated = false → TableOk s.table → ∃ r, (t.table.slot 0).record = some r ∧ r.severity = .major ∧
        r.extra = data ∧ (r.state = .raised ∨ r.state = .acked)) ∧
      (s.table.saturated = true → ∀ r, (s.table.slot 0).record = some r →
        (counts = s.table.suppressed → t.table.slot 0 = s.table.slot 0) ∧
        (counts ≠ s.table.suppressed → t.table.slot 0 = { s.table.slot 0 with record := some { r with
          extra := data, lastChange := s.clock.station, changeOrder := nextOrder s.table.changeOrder
          townCurrent := false } }))) ∧
     (∀ j, 1 ≤ j → t.table.slot j = s.table.slot j) ∧
     t.table.raisedSinceClear = min 4294967295 (s.table.raisedSinceClear + 1)) ∧
  (∀ s : State, let p := s.link.period.getD 0
     (s.link.state ≠ .quiet → wakeLink true s = s) ∧
     (s.link.state = .quiet → wakeLink true s = setFlag .link (s.onLink fun l => { l with
       state := .online, heartbeatTimer := some (100 * (3 * p)), statusOwed := true, statusTimer := some (100 * p)
       wakesOwed := l.wakesOwed + 1 }))) ∧
  (∀ (s : State) (stages : List (List Change)) (free a b stage : List Change) (c : Change),
     let at_ := fun (c : Change) => match c with
       | .edge e => (match s.table.seatedAt? ⟨e.kind, e.number⟩ with
         | some i => i
         | none => if e.extra = none then 48 else s.table.place?.getD 0)
       | .unshelve i => i
     let lowest := fun (l : List Change) => l = a ++ c :: b ∧ (∀ x ∈ a, at_ c < at_ x) ∧ ∀ x ∈ b, at_ c ≤ at_ x
     let u := makeChange c s
     makeChanges [] [] s = s ∧ makeChanges ([] :: stages) free s = makeChanges stages free s ∧
     (lowest free → makeChanges [] free s = makeChanges [] (a ++ b) u) ∧
     (lowest stage → (∀ x ∈ free, at_ c ≤ at_ x) →
       makeChanges (stage :: stages) free s = makeChanges ((a ++ b) :: stages) free u) ∧
     (lowest free → stage ≠ [] → (∀ x ∈ stage, at_ c < at_ x) →
       makeChanges (stage :: stages) free s = makeChanges (stage :: stages) (a ++ b) u)) ∧
  (∀ (s : State) (es : List Edge) (stages : List (List Edge)) (k : Kind) (n i : Nat) (x : List Byte),
     offerEdges es s = makeChanges [] (es.map .edge) s ∧
     offerStages stages es s = makeChanges (stages.map fun l => l.map .edge) (es.map .edge) s ∧
     makeChange (.edge ⟨k, n, some x⟩) s = raise ⟨k, n⟩ k.severity x s ∧
     makeChange (.edge ⟨k, n, none⟩) s = returnKey ⟨k, n⟩ s ∧ makeChange (.unshelve i) s = enforceMaskAt i s)

/-- A return (R123, R125, R133): RAISED becomes RETURNED and ACKED becomes DORMANT, a RETURNED or DORMANT record stands,
and a key that waits leaves the list. A general record made DORMANT serves the waiting list.

Serving (R134): while the list holds an entry and R126 gives a place, the head is seated there, its first-raised the
entry's time, with nothing counted; with no entry or no place it ends. At the end of an event, TABLE-SATURATED's cause goes
and its return is taken where a general slot is vacant or holds a DORMANT record (R132). -/
def Obligations.ReturnMovesRecord : Prop :=
  (∀ (s : State) (k : Key), let t := returnKey k s
    (∀ i, s.table.seatedAt? k = some i → ∀ r, (s.table.slot i).record = some r →
      (r.state = .raised ∨ r.state = .acked → ∃ u : State,
        t = (if r.state = .acked ∧ i ≠ 0 then serve u else u) ∧
        u.table.slot i = { s.table.slot i with
          record := some { r with
            state := if r.state = .raised then .returned else .dormant
            lastChange := s.clock.station, changeOrder := nextOrder s.table.changeOrder, townCurrent := false } } ∧
        (∀ j, j ≠ i → u.table.slot j = s.table.slot j) ∧ u.port.flags.condition = true ∧
        u = { s with table := u.table, port := u.port } ∧
        u.table = { s.table with slots := u.table.slots, changeOrder := nextOrder s.table.changeOrder }) ∧
      (r.state = .returned ∨ r.state = .dormant → t = s)) ∧
    (s.table.seatedAt? k = none → t.table.slots = s.table.slots ∧
      t.table.waiting = s.table.waiting.filter fun w => w.key ≠ k)) ∧
  (∀ s : State,
    (s.table.waiting = [] ∨ s.table.place? = none → serve s = s) ∧
    (∀ w rest, s.table.waiting = w :: rest → ∀ i, s.table.place? = some i →
      serve s = serve (seat i w.key w.severity w.extra w.time (setWaiting rest s))) ∧
    (∀ i, s.table.place? = some i →
      1 ≤ i ∧ i ≤ 47 ∧ (((s.table.slot i).record = none ∧ ∀ j, 1 ≤ j → j < i → (s.table.slot j).record ≠ none) ∨
        ((∀ j, 1 ≤ j → j ≤ 47 → (s.table.slot j).record ≠ none) ∧
          ∃ r, (s.table.slot i).record = some r ∧ r.state = .dormant ∧ ∀ j, 1 ≤ j → j ≤ 47 →
            ∀ q, (s.table.slot j).record = some q → q.state = .dormant → r.changeOrder ≤ q.changeOrder))) ∧
    (s.table.place? = none ↔ ∀ i, 1 ≤ i → i ≤ 47 →
      ∃ r, (s.table.slot i).record = some r ∧ r.state ≠ .dormant)) ∧
  (∀ (s : State) (k : Key) (sev : Severity) (x : List Byte) (first : Stamp) (i : Nat), i < s.table.slots.length →
    let t := seat i k sev x first s
    let g := (s.table.slot i).gen
    t.table.slot i = ⟨if g < 255 then g + 1 else 1,
      some ⟨k, sev, .raised, false, none, .nobody, 1, first, s.clock.station,
        nextOrder s.table.changeOrder, x, false⟩, none⟩ ∧
    (∀ j, j ≠ i → t.table.slot j = s.table.slot j) ∧
    t.table = { s.table with slots := t.table.slots, changeOrder := nextOrder s.table.changeOrder } ∧
    t.port.flags.condition = true) ∧
  (∀ s : State, let ended := s.table.saturated = true ∧ ∃ i, i < 48 ∧ i ≠ 0 ∧
      ((s.table.slot i).record = none ∨ ∃ r, (s.table.slot i).record = some r ∧ r.state = .dormant)
    (ended → testSaturation s = returnKey ⟨.tableSaturated, 0⟩ (s.onTable fun t => { t with saturated := false })) ∧
    (¬ended → testSaturation s = s))

/-- Handles, ACKNOWLEDGE and RETIRE by handle from either party (R122, R128, R130): a slot above 47 is OUT-OF-RANGE, a
handle whose slot is vacant or of another generation STALE-HANDLE, and nothing changes; a RAISED record becomes ACKED by
that party, with the notice of a latched kind sent (R129), and a RETURNED one DORMANT; an ACKED or DORMANT one is ALREADY;
only a DORMANT record retires, leaving its slot vacant at its generation with a gone notice owed, and slot 0's retirement
sets the suppression counts to 0. A general slot that is vacated or made DORMANT serves the waiting list (R134).

ACKNOWLEDGE and RETIRE from both ports (R128, R130, R184) answer what their handle gives: the panel by its result, the
town by an owed response. -/
def Obligations.AcknowledgeAndRetire : Prop :=
  (∀ (s : State) (i g : Nat) (by_ : Party),
     (47 < i → takeAcknowledge i g by_ s = (.outOfRange, s) ∧ takeRetire i g s = (.outOfRange, s)) ∧
     (i ≤ 47 → ((s.table.slot i).record = none ∨ (s.table.slot i).gen ≠ g) →
       takeAcknowledge i g by_ s = (.staleHandle, s) ∧ takeRetire i g s = (.staleHandle, s)) ∧
     (i ≤ 47 → ∀ r, (s.table.slot i).record = some r → (s.table.slot i).gen = g →
       let served := fun (t : State) => if i = 0 then t else serve t
       (r.state = .acked ∨ r.state = .dormant → takeAcknowledge i g by_ s = (.already, s)) ∧
       (r.state ≠ .dormant → takeRetire i g s = (.notDormant, s)) ∧
       (r.state = .raised ∨ r.state = .returned → ∃ t : State,
         takeAcknowledge i g by_ s = (.done, if r.state = .returned then served t
           else if r.key.kind.latched then sendNotice r.key t else t) ∧
         t.table.slot i = { s.table.slot i with
           record := some { r with
             state := if r.state = .raised then .acked else .dormant, ackBy := by_, lastChange := s.clock.station
             changeOrder := nextOrder s.table.changeOrder, townCurrent := false } } ∧
         (∀ j, j ≠ i → t.table.slot j = s.table.slot j) ∧ t.port.flags.condition = true ∧ t.pumps = s.pumps ∧
         t.screens = s.screens ∧ t.link = s.link ∧ t.table.waiting = s.table.waiting) ∧
       (r.state = .dormant → ∃ t : State, takeRetire i g s = (.done, served t) ∧
         t.table.slot i = ⟨g, none, some (nextOrder s.table.changeOrder)⟩ ∧
         (∀ j, j ≠ i → t.table.slot j = s.table.slot j) ∧ t.port.flags.condition = true ∧
         t.table = { s.table with slots := t.table.slots, changeOrder := nextOrder s.table.changeOrder
                                  suppressed := if i = 0 then ⟨0, 0, 0, 0⟩ else s.table.suppressed }))) ∧
  (∀ (s : State) (a g tag : Byte),
     (s.portIdle →
       (let r := takeAcknowledge a.toNat g.toNat .panel (s.taken 0x32 [a, g])
        exec (.acknowledge a g) s = .next (conclude (reply r.1 [] r.2))) ∧
       (let r := takeRetire a.toNat g.toNat (s.taken 0x36 [a, g])
        exec (.retire a g) s = .next (conclude (reply r.1 [] r.2)))) ∧
     (Admits tag s →
       (let r := takeAcknowledge a.toNat g.toNat .town s.woken
        exec (.townAcknowledge tag [a, g]) s = .next (conclude (r.2.responded 0x13 tag [byte r.1.code]))) ∧
       (let r := takeRetire a.toNat g.toNat s.woken
        exec (.townRetire tag [a, g]) s = .next (conclude (r.2.responded 0x14 tag [byte r.1.code])))))

/-- SHELVE, UNSHELVE and the shelf's expiry (R122, R135, R136): the handle, the time and the kind are checked in that
order; a record shelved takes the flag and a timer of the given minutes, and setting the flag is a change (R123) where a
timer begun again is none; unshelving clears both, whatever the timer had
left, and a RAISED record that can now sound the horn ends the silence (R147); a record not shelved is ALREADY.

A commit unshelves every shelved record whose kind its mask does not permit, each a change, and no other record moves
(R137). -/
def Obligations.Shelves : Prop :=
  (∀ (s : State) (a g : Byte) (m : BitVec 16) (r : Record), s.portIdle →
    (47 < a.toNat → exec (.shelve a g m) s = .next (s.answered [6]) ∧
      exec (.unshelve a g) s = .next (s.answered [6])) ∧
    (a.toNat ≤ 47 → (s.table.slot a.toNat).record = none ∨ (s.table.slot a.toNat).gen ≠ g.toNat →
      exec (.shelve a g m) s = .next (s.answered [2]) ∧ exec (.unshelve a g) s = .next (s.answered [2])) ∧
    (a.toNat ≤ 47 → (s.table.slot a.toNat).record = some r → (s.table.slot a.toNat).gen = g.toNat →
      let may := r.key.kind.shelvable = true ∧ s.running.permitsShelving r.key.kind = true
      ((m.toNat < 1 ∨ 480 < m.toNat) → exec (.shelve a g m) s = .next (s.answered [6])) ∧
      (1 ≤ m.toNat → m.toNat ≤ 480 → ¬may → exec (.shelve a g m) s = .next (s.answered [5])) ∧
      (1 ≤ m.toNat → m.toNat ≤ 480 → may → ∃ u : State, exec (.shelve a g m) s = .next (conclude (u.answered [0])) ∧
        u = { s with table := u.table, port := u.port } ∧ (∀ j, j ≠ a.toNat → u.table.slot j = s.table.slot j) ∧
        (r.shelved = false → (u.table.slot a.toNat).record = some { r with
            shelved := true, shelf := some (6000 * m.toNat), lastChange := s.clock.station
            changeOrder := nextOrder s.table.changeOrder, townCurrent := false } ∧
          u.table.changeOrder = nextOrder s.table.changeOrder ∧ u.port.flags.condition = true) ∧
        (r.shelved = true → let longer := some { r with shelf := some (6000 * m.toNat) }
          u = s.onTable fun t => { t with
            slots := t.slots.set a.toNat { t.slot a.toNat with record := longer } }) ∧
        ∃ q : Record, (u.table.slot a.toNat).record = some q ∧ q.shelved = true ∧ q.shelf = some (6000 * m.toNat) ∧
          q.key = r.key ∧ q.state = r.state ∧ q.ackBy = r.ackBy ∧ q.raiseCount = r.raiseCount ∧
          (r.shelved = true → q.changeOrder = r.changeOrder ∧ q.lastChange = r.lastChange)) ∧
      (r.shelved = false → exec (.unshelve a g) s = .next (s.answered [1])) ∧
      (r.shelved = true → exec (.unshelve a g) s =
        .next (conclude ((unshelveSlot a.toNat s).answered [0]))))) ∧
  (∀ (s : State) (i : Fin 48) (r : Record), (s.table.slot i.val).record = some r → r.shelved = true →
    let t := unshelveSlot i.val s
    (r.shelf = some 0 → exec (.shelfTimerExpiry i) s = .next (conclude t)) ∧
    (t.table.slot i.val).record = some { r with
      shelved := false, shelf := none, lastChange := s.clock.station
      changeOrder := nextOrder s.table.changeOrder, townCurrent := false } ∧
    (∀ j, j ≠ i.val → t.table.slot j = s.table.slot j) ∧ t.port.flags.condition = true ∧
    t.ann = { s.ann with silence := s.ann.silence &&
      !(decide (r.state = .raised) && decide (s.running.hornThreshold ≤ r.severity.code)) } ∧
    t = { s with table := t.table, port := t.port, ann := t.ann }) ∧
  (∀ (s : State) (i : Nat), enforceMaskAt i s = match (s.table.slot i).record with
    | some r => if r.shelved = true ∧ s.running.permitsShelving r.key.kind = false then unshelveSlot i s else s
    | none => s) ∧
  (∀ s : State, let t := commitChanges [] s
    t = { s with table := t.table, port := t.port, ann := t.ann } ∧
    ∀ i, i < 48 → (∀ r, (s.table.slot i).record = some r → r.shelved = true →
        s.running.permitsShelving r.key.kind = false →
        ∃ o, t.table.slot i = { s.table.slot i with record := some { r with
          shelved := false, shelf := none, lastChange := s.clock.station, changeOrder := o, townCurrent := false } }) ∧
      ((∀ r, (s.table.slot i).record = some r → r.shelved = true → s.running.permitsShelving r.key.kind = true) →
        t.table.slot i = s.table.slot i))

/-- POST CONDITION and RETURN CONDITION (R138, R139): a post is a raise of the panel's key, answered with the record's
handle, or SUPPRESSED where no place exists; a severity above 3 or a length above 8 is OUT-OF-RANGE. A return is answered
by where the key stands. -/
def Obligations.PanelConditions : Prop :=
  ∀ (s : State) (code sev len : Byte) (data : List Byte), s.portIdle → data.length = 8 →
    let k : Key := ⟨.panelPosted, code.toNat⟩
    let u := s.taken 0x38 (code :: sev :: len :: data)
    let x := data.take len.toNat
    ((3 < sev.toNat ∨ 8 < len.toNat) → exec (.postCondition code sev len data) s = .next (s.answered [6])) ∧
    (∀ v i, severityOf? sev.toNat = some v → len.toNat ≤ 8 →
      (s.table.seatedAt? k = some i ∨
        (s.table.seatedAt? k = none ∧ s.table.waitsAt? k = none ∧ s.table.place? = some i)) →
      exec (.postCondition code sev len data) s =
        .next (conclude (reply .done [byte i, byte ((raise k v x u).table.slot i).gen] (raise k v x u)))) ∧
    (∀ v, severityOf? sev.toNat = some v → len.toNat ≤ 8 → s.table.seatedAt? k = none → s.table.place? = none →
      exec (.postCondition code sev len data) s =
        .next (conclude (reply .suppressed [] (countSuppression v (countRaise u))))) ∧
    (s.table.seatedAt? k = none → exec (.returnCondition code) s = .next (conclude (s.answered [3]))) ∧
    (∀ i r, s.table.seatedAt? k = some i → (s.table.slot i).record = some r →
      (r.state = .raised ∨ r.state = .acked → exec (.returnCondition code) s =
        .next (conclude (reply .done [] (returnKey k (s.taken 0x39 [code]))))) ∧
      (r.state = .returned ∨ r.state = .dormant →
        exec (.returnCondition code) s = .next (conclude (s.answered [1]))))

/-- RETIRE DORMANT (R141): every DORMANT record goes, slot 0's with the suppression counts, the header is cleared, the
waiting list is served, and the answer is their number.

ACKNOWLEDGE ALL (R140): OUT-OF-RANGE for a filter out of range; ALREADY with 0 where no record is RAISED or RETURNED, at or
above the severity, of the class and unshelved unless asked; else DONE with the number of those records, each of them
acknowledged by the panel. Where nothing waits for a place, each of them ends so: a RETURNED one DORMANT, a RAISED one ACKED,
or DORMANT where its notice releases it; and a record outside the set whose kind is not latched does not move. -/
def Obligations.TableWideCommands : Prop :=
  (∀ s : State, s.portIdle →
    ∃ v : State, exec .retireDormant s = .next (conclude ((serve v).answered
        [0, byte ((List.range 48).countP fun i => (s.table.slot i).record.any fun r => r.state = .dormant)])) ∧
      v.table.raisedSinceClear = 0 ∧ v.table.lastClear = s.clock.station ∧ v.port.flags.condition = true ∧
      v.table.waiting = s.table.waiting ∧
      (∀ i, i < 48 → TableOk s.table →
        ((∀ r, (s.table.slot i).record = some r → r.state ≠ .dormant) → v.table.slot i = s.table.slot i) ∧
        (∀ r, (s.table.slot i).record = some r → r.state = .dormant →
          ∃ o, v.table.slot i = ⟨(s.table.slot i).gen, none, some o⟩ ∧
            (i = 0 → v.table.suppressed = ⟨0, 0, 0, 0⟩)))) ∧
  (∀ (s : State) (sev cls sh : Byte), s.portIdle →
    ((3 < sev.toNat ∨ 1 < sh.toNat ∨ (8 < cls.toNat ∧ cls.toNat ≠ 255)) →
      exec (.acknowledgeAll sev cls sh) s = .next (s.answered [6])) ∧
    (∀ v, severityOf? sev.toNat = some v → ∀ c, classFilter? cls.toNat = some c → sh.toNat ≤ 1 →
      let r := takeAckAll v c (decide (sh.toNat = 1)) (s.taken 0x33 [sev, cls, sh])
      exec (.acknowledgeAll sev cls sh) s = .next (conclude (reply r.1 [byte r.2.1] r.2.2)))) ∧
  (∀ (s : State) (v : Severity) (c : Option SourceClass) (all : Bool),
    let met := fun (r : Record) => (r.state = .raised ∨ r.state = .returned) ∧ v.code ≤ r.severity.code ∧
      (c = none ∨ c = some r.key.kind.cls) ∧ (all = true ∨ r.shelved = false)
    let n := (List.range 48).countP fun i => (s.table.slot i).record.any fun r => decide (met r)
    let t := (takeAckAll v c all s).2.2
    (n = 0 → takeAckAll v c all s = (.already, 0, s)) ∧
    (n ≠ 0 → takeAckAll v c all s = (.done, n, t)) ∧
    (s.table.waiting = [] → ∀ i, i < 48 → ∀ r, (s.table.slot i).record = some r →
      (met r → ∃ q, (t.table.slot i).record = some q ∧ q.ackBy = .panel ∧ q.key = r.key ∧
        (r.state = .returned ∨ r.key.kind.latched = false →
          q.state = (if r.state = .raised then .acked else .dormant)) ∧
        (q.state = .acked ∨ q.state = .dormant) ∧ t.port.flags.condition = true) ∧
      (¬met r → r.key.kind.latched = false → t.table.slot i = s.table.slot i)))

/-- SILENCE and the flash phase (R147, R151): SILENCE sets the silence state and stops the horn where the demand is present
and not silenced, and is ALREADY otherwise; the flash phase is on in the first half of each second of uptime. -/
def Obligations.SilenceAndFlash : Prop :=
  ∀ s : State,
    (s.portIdle →
      (hornDemand s = true → s.ann.silence = false → exec .silence s =
        .next (conclude ({ s with ann := { s.ann with silence := true, horn := false } }.answered [0]))) ∧
      ((hornDemand s = false ∨ s.ann.silence = true) → exec .silence s = .next (conclude (s.answered [1])))) ∧
    exec .flashPhase s =
      .next { s with ann := { s.ann with flashOn := decide (s.clock.uptime.ticks < 50) } }

/-! The Panel Port -/

/-- The panel exchange (R156, R159): in IDLE the code clears the PROTOCOL mark, each byte short of the fixed count waits in
PARAMETERS, and the last byte executes the command; so the bytes of a whole command run it at once. Written while a result,
a stream or a commit stands, every byte is a protocol fault (R158), and with RESET# asserted none is taken (R171). -/
def Obligations.PanelExchange : Prop :=
  ∀ (s : State) (code b : Byte) (ps : List Byte),
    (s.portIdle → parameterCount? code.toNat = some ps.length →
      writeBytes (code :: ps) s = runCommand code.toNat ps (s.taken code ps) ∧
      ∀ qs, qs.length < ps.length → writeBytes (code :: qs) s =
        s.onPort fun p => { p with protocol := false, phase := .parameters code qs }) ∧
    (s.portIdle → exec (.commandCodeWrite b) s = .next
      (match parameterCount? b.toNat with
        | none => s.answered [9]
        | some 0 => runCommand b.toNat [] (s.taken b [])
        | some (_ + 1) => s.onPort fun p => { p with protocol := false, phase := .parameters b [] })) ∧
    (∀ c qs n, s.port.phase = .parameters c qs → s.port.resetLine = false → parameterCount? c.toNat = some n →
      exec (.parameterByte b) s = .next
        (if n ≤ qs.length + 1 then runCommand c.toNat (qs ++ [b]) s
        else s.onPort fun p => { p with phase := .parameters c (qs ++ [b]) })) ∧
    ((s.port.phase = .executing ∨ (∃ st, s.port.phase = .streaming st) ∨ ∃ r, s.port.phase = .result r) →
      s.port.resetLine = false → ∀ bs : List Byte, bs ≠ [] →
      writeBytes bs s = s.onPort fun p => { p with protocol := true }) ∧
    (s.port.resetLine = true → ∀ bs tc, writeBytes bs s = s ∧ exec (.dataRead tc) s = .next s ∧
      exec (.statusWrite b) s = .next s)

/-- A code that names no command (R157): in IDLE it is answered at once with the one byte INVALID-COMMAND, no parameter
byte is taken for it, and no block is reached; the writes that follow are protocol faults; the one read that takes the
byte leaves the port IDLE. -/
def Obligations.InvalidCommand : Prop :=
  ∀ (s : State) (code : Byte) (tc : Bool) (bs : List Byte), s.portIdle → parameterCount? code.toNat = none →
    exec (.invalidCommand code) s = .next (s.answered [9]) ∧
    exec (.commandCodeWrite code) s = .next (s.answered [9]) ∧
    (bs ≠ [] → writeBytes bs (s.answered [9]) = (s.answered [9]).onPort fun p => { p with protocol := true }) ∧
    exec (.dataRead tc) (s.answered [9]) =
      .next (s.onPort fun p => { p with protocol := false, phase := .idle, dataOut := 9 })

/-- Protocol faults and reads (R154, R158, R159): a write where no byte is taken, a status write of any value but the
reset code, and a read where no byte is offered, which gives 0, set the PROTOCOL mark and move nothing else. A read in
RESULT gives the next byte, and the last one leaves the port IDLE. -/
def Obligations.ProtocolFaults : Prop :=
  ∀ (s : State) (b : Byte) (tc : Bool), s.port.resetLine = false →
    let fault := s.onPort fun p => { p with protocol := true }
    ((s.port.phase = .executing ∨ (∃ st, s.port.phase = .streaming st) ∨ ∃ r, s.port.phase = .result r) →
      exec (.commandCodeWrite b) s = .next fault ∧ exec (.parameterByte b) s = .next fault) ∧
    (b ≠ 0x5A → exec (.statusWrite b) s = .next fault) ∧
    ((s.port.phase = .executing ∨ s.port.phase = .idle ∨ s.port.phase = .result [] ∨
        ∃ c ps, s.port.phase = .parameters c ps) →
      exec (.dataRead tc) s = .next (s.onPort fun p => { p with protocol := true, dataOut := 0 })) ∧
    (∀ x rest, s.port.phase = .result (x :: rest) →
      exec (.dataRead tc) s = .next (s.onPort fun p =>
        { p with dataOut := x, phase := if rest = [] then .idle else .result rest }))

/-- READ CONDITIONS (R162, R163): a parameter out of its range is answered OUT-OF-RANGE; else the first slot from the
start slot that matches is copied and its image offered with the byte window, or, where none matches, the result is DONE
with 0 records and resume slot 255.

A read in STREAMING (R163, R165, R166): it gives the byte offered and offers the next with its window afresh; TC ends
the stream after that byte; the last byte of an image delivers its record, and the stream ends at its maximum or goes on
to the next match. The window's expiry ends it with OVERRUN (R164). That a read with TC asserted ends TERMINATED where it
also delivers the last record wanted or to be found is the model's choice (assumption 22), and so is that a state-set byte
with any of bits 4 to 7 set is out of range (assumption 37).

A record's image (section 12.3): length, handle, key, severity and state, shelf minutes rounded up with the latched and
shelved flags and the acknowledging party, raise count, the two times, and the extra data. -/
def Obligations.RecordStream : Prop :=
  (∀ (s : State) (st mx sev sts sh cl : Byte), s.portIdle →
     let bad := 47 < st.toNat ∨ 48 < mx.toNat ∨ 3 < sev.toNat ∨ sts.toNat = 0 ∨ 15 < sts.toNat ∨ 1 < sh.toNat ∨
       (8 < cl.toNat ∧ cl.toNat ≠ 255)
     (bad → exec (.readConditions st mx sev sts sh cl) s = .next (s.answered [6])) ∧
     (∀ v c, severityOf? sev.toNat = some v → classFilter? cl.toNat = some c → ¬bad →
       let hit := fun j => st.toNat ≤ j ∧ j < 48 ∧ ∃ r, (s.table.slot j).record = some r ∧
         sts.toNat.testBit r.state.code = true ∧ v.code ≤ r.severity.code ∧
         (c = none ∨ c = some r.key.kind.cls) ∧ (sh.toNat = 1 ∨ r.shelved = false)
       (∀ i r, hit i → (∀ j, hit j → i ≤ j) → (s.table.slot i).record = some r →
         exec (.readConditions st mx sev sts sh cl) s = .next (s.onPort fun p => { p with
           protocol := false, window := some 2
           phase := .streaming ⟨mx.toNat, v, sts.toNat, decide (sh.toNat = 1), c, i + 1, i,
             recordImage i (s.table.slot i).gen r, 0⟩ })) ∧
       ((∀ j, ¬hit j) →
         exec (.readConditions st mx sev sts sh cl) s = .next ((s.onPort fun p => { p with window := none }).answered
           ([0, 0, 255, byte s.table.seatedCount] ++ bytes4 s.table.raisedSinceClear))))) ∧
  (∀ (s : State) (st : Stream), s.port.phase = .streaming st → s.port.resetLine = false →
     let ends := fun (t : State) (code : Byte) (delivered resume : Nat) => t.onPort fun p => { p with
       window := none
       phase := .result ([code, byte delivered, byte resume, byte s.table.seatedCount] ++
         bytes4 s.table.raisedSinceClear) }
     let gave := fun (b : Byte) => s.onPort fun p => { p with dataOut := b }
     (∀ b c rest, st.left = b :: c :: rest →
       exec (.dataRead false) s = .next ((gave b).onPort fun p =>
         { p with phase := .streaming { st with left := c :: rest }, window := some 2 }) ∧
       exec (.dataRead true) s = .next (ends (gave b) 11 st.delivered st.slot)) ∧
     (∀ b, st.left = [b] → let n := st.delivered + 1
       let resume := (st.next? s.table).getD 255
       exec (.dataRead true) s = .next (ends (gave b) 11 n resume) ∧
       (st.maximum ≠ 0 → st.maximum ≤ n → exec (.dataRead false) s = .next (ends (gave b) 0 n resume)) ∧
       ((st.maximum = 0 ∨ n < st.maximum) →
         (st.next? s.table = none → exec (.dataRead false) s = .next (ends (gave b) 0 n 255)) ∧
         (∀ i, st.next? s.table = some i → exec (.dataRead false) s = .next ((gave b).onPort fun p => { p with
           window := some 2
           phase := .streaming { st with nextSlot := i + 1, slot := i, left := s.table.image i, delivered := n } })))) ∧
     (s.port.window = some 0 → exec .byteWindowExpiry s = .next (ends s 10 st.delivered st.slot))) ∧
  (∀ (i g : Nat) (r : Record),
     recordImage i g r =
       [byte (20 + r.extra.length), byte i, byte g, byte r.key.kind.cls.code, byte r.key.number, byte r.key.kind.code,
         byte (16 * r.severity.code + r.state.code)] ++
       bytes2 ((r.shelf.getD 0 + 5999) / 6000 + (if r.key.kind.latched then 512 else 0) + (if r.shelved then 1024 else 0) +
         2048 * r.ackBy.code) ++
       [byte r.raiseCount] ++ bytes4 r.firstRaised.secs ++ [byte r.firstRaised.ticks] ++
       bytes4 r.lastChange.secs ++ [byte r.lastChange.ticks] ++ r.extra ∧
     (recordImage i g r).length = 20 + r.extra.length ∧
     [RecState.raised, .acked, .returned, .dormant].map RecState.code = [0, 1, 2, 3] ∧
     [Severity.advisory, .minor, .major, .critical].map Severity.code = [0, 1, 2, 3] ∧
     [Party.nobody, .panel, .town].map Party.code = [0, 1, 2])

/-- READ ATTENTION (R168): the result is DONE and one byte of the flags both set and enabled; each flag read as set is
cleared, a flag whose enable is off keeps its state, and ATTN is formed again, so it drops.

SET ATTENTION ENABLES (R169): a byte with either remaining position set is OUT-OF-RANGE and changes nothing; any other
replaces the six enables, leaves the flags, and forms ATTN again. -/
def Obligations.AttentionCommands : Prop :=
  (∀ s : State, s.portIdle →
     let f := s.port.flags
     let e := s.port.enables
     exec .readAttention s = .next ((s.onPort fun p => { p with
         attn := false
         flags := ⟨f.condition && !e.condition, f.screen && !e.screen, f.power && !e.power, f.link && !e.link,
           f.settings && !e.settings, f.balance && !e.balance⟩ }).answered
       [0, byte (bits [f.condition && e.condition, f.screen && e.screen, f.power && e.power, f.link && e.link,
         f.settings && e.settings, f.balance && e.balance])])) ∧
  (∀ (s : State) (b : Byte), s.portIdle →
     ((b.getLsbD 6 = true ∨ b.getLsbD 7 = true) → exec (.setAttentionEnables b) s = .next (s.answered [6])) ∧
     (b.getLsbD 6 = false → b.getLsbD 7 = false →
       let e : Attention :=
         ⟨b.getLsbD 0, b.getLsbD 1, b.getLsbD 2, b.getLsbD 3, b.getLsbD 4, b.getLsbD 5⟩
       let f := s.port.flags
       exec (.setAttentionEnables b) s = .next ((s.onPort fun p => { p with
         enables := e
         attn := f.condition && e.condition || f.screen && e.screen || f.power && e.power || f.link && e.link ||
           f.settings && e.settings || f.balance && e.balance }).answered [0])))

/-- A port reset (R170) by the status write in any phase, by its command in IDLE, or by RESET# released before its timer:
the port is IDLE with the mark, the six flags, the six enables, the window and ATTN cleared, and the staging set is the
running set. Nothing else moves. RESET# asserted starts its timer of 10 ms, and released after
it resets nothing more (R171). That an assertion of an asserted line and a release of a released one change nothing is the
model's choice (assumption 2). -/
def Obligations.PortResets : Prop :=
  ∀ s : State,
    let after := fun (line : Bool) (timer : Timer) => { s with
      port := ⟨.idle, false, none, .none, .none, false, s.port.dataOut, line, timer⟩
      store := { s.store with staging := s.store.running } }
    (s.port.resetLine = false → exec (.statusWrite 0x5A) s = .next (after false s.port.resetTimer)) ∧
    (s.portIdle → exec .portReset s = .next (after false s.port.resetTimer)) ∧
    (s.port.resetLine = true → s.port.resetTimer ≠ none → exec .resetRelease s = .next (after false none)) ∧
    (s.port.resetLine = true → s.port.resetTimer = none →
      exec .resetRelease s = .next (s.onPort fun p => { p with resetLine := false })) ∧
    (s.port.resetLine = false →
      exec .resetAssert s = .next (s.onPort fun p => { p with resetLine := true, resetTimer := some 1 }) ∧
      exec .resetRelease s = .next s) ∧
    (s.port.resetLine = true → exec .resetAssert s = .next s)

/-- The commands that read (R16, R34, R57, R117, R142, R172, R190, R193, R197): each answers DONE and the image of what it
reads, OUT-OF-RANGE where it names nothing, and moves nothing but the port. READ LINK gives the rate the link uses and the
running set's station_id, the model's choice of what is in force (R191, assumption 43). The values the summary shows as of the last period end are those `Shown` keeps, the model's reading (assumption 32).

The images (section 12.3), with their codes: tally 13 bytes, pump 20, screen 39 with the completion record, channel entries
54, and the summary 92, each field at its offset, most significant byte first. How a time is rounded where the manual is
silent, and a start's age, is left free (assumption 16). That an absent value with no code is sent as 0, and that a pump's
place in the ladder counts from 1, is the model's choice (assumptions 17 and 31). -/
def Obligations.PanelReads : Prop :=
  (∀ (s : State) (b c k : Byte), s.portIdle →
    exec .readSummary s = .next (s.answered (0 :: summaryImage s)) ∧
    exec .readChannels s = .next (s.answered (0 :: channelsImage s.level)) ∧ (channelsImage s.level).length = 54 ∧
    exec .readTallies s = .next (s.answered
      (0 :: (tallyImage (s.balance.weirs.get .i1).tally ++ tallyImage (s.balance.weirs.get .i2).tally))) ∧
    exec .readClock s = .next (s.answered (0 :: (bytes4 s.clock.uptime.secs ++ [byte s.clock.uptime.ticks] ++
      bytes4 s.clock.station.secs ++ [byte s.clock.station.ticks, if s.clock.set then 1 else 0]))) ∧
    exec .readLink s = .next (s.answered (0 :: ([byte s.link.state.code, byte (baudCode s.link.baud)] ++
      bytes2 s.running.stationId ++ [byte (s.link.grant.getD 0), byte (s.link.period.getD 0), byte s.link.credits,
        byte s.link.requests.length] ++ bytes2 ((s.link.heartbeatTimer.getD 0 + 99) / 100) ++
      [byte (s.table.owing.countP Owing.isRecord), byte (s.table.owing.countP fun o => !o.isRecord)] ++
      bytes2 s.link.badFrames))) ∧
    (∀ p : Ix6, b.toNat = p.num → exec (.readPump b) s = .next (s.answered (0 :: pumpImage p s)) ∧
      (pumpImage p s).length = 20) ∧
    ((∀ p : Ix6, b.toNat ≠ p.num) → exec (.readPump b) s = .next (s.answered [6])) ∧
    (∀ n : Ix2, b.toNat = n.num → exec (.readScreen b) s = .next (s.answered (0 :: screenImage n s)) ∧
      (screenImage n s).length = 39) ∧
    ((∀ n : Ix2, b.toNat ≠ n.num) → exec (.readScreen b) s = .next (s.answered [6])) ∧
    ((fieldRange? c.toNat k.toNat).isSome →
      exec (.readSettings 0 c k) s = .next (s.answered (0 :: bytes4 (s.store.running.get c.toNat k.toNat))) ∧
      exec (.readSettings 1 c k) s = .next (s.answered (0 :: bytes4 (s.store.staging.get c.toNat k.toNat)))) ∧
    ((1 < b.toNat ∨ fieldRange? c.toNat k.toNat = none) →
      exec (.readSettings b c k) s = .next (s.answered [6])) ∧
    (key? b.toNat c.toNat k.toNat = none → exec (.findCondition b c k) s = .next (s.answered [6])) ∧
    (∀ q, key? b.toNat c.toNat k.toNat = some q →
      (∀ i, s.table.seatedAt? q = some i →
        exec (.findCondition b c k) s = .next (s.answered (0 :: s.table.image i))) ∧
      (s.table.seatedAt? q = none → s.table.waitsAt? q = none →
        exec (.findCondition b c k) s = .next (s.answered [3, 0])) ∧
      (∀ i, s.table.seatedAt? q = none → s.table.waitsAt? q = some i →
        exec (.findCondition b c k) s = .next (s.answered [3, byte (i + 1)])))) ∧
  (∀ (s : State) (p : Ix6) (t : Tally), let q := s.pump p
    let flag := fun (n : Nat) (v : Bool) => if v then 2 ^ n else 0
    tallyImage t = bytes4 t.volume ++ bytes4 t.seconds ++ bytes2 t.episodes ++ bytes2 t.peak ++
      [if t.incomplete then 1 else 0] ∧ (tallyImage t).length = 13 ∧
    pumpImage p s = [byte p.num, byte q.selector.code, byte q.seq.code,
        byte (flag 0 q.locks.thermal + flag 1 q.locks.trip + flag 2 q.locks.failStart + flag 3 q.locks.panelInhibit +
          flag 4 q.locks.townInhibit),
        byte (s.running.pumpUnits p),
        byte (flag 0 q.headLimited + flag 1 q.headBlocked + flag 2 q.startsLimited + flag 3 q.called),
        byte q.history.length] ++ bytes2 (oldestAge s.clock.uptime q.history) ++
      [byte (s.duty.ladder.findIdx (fun x => x = p) + 1)] ++ bytes4 q.runSeconds ++ bytes4 q.starts ++ bytes2 q.flow ∧
    oldestAge s.clock.uptime [] = 0 ∧
    (∀ a rest, q.history = a :: rest → let age := ticksSince s.clock.uptime a
      oldestAge s.clock.uptime q.history = age / 100 ∨
        (age % 100 ≠ 0 ∧ oldestAge s.clock.uptime q.history = age / 100 + 1)) ∧
    [Selector.off, .hand, .auto].map Selector.code = [0, 1, 2] ∧
    [Seq.off, .hand, .idle, .queued, .starting, .running, .stopping, .runOn].map Seq.code = [0, 1, 2, 3, 4, 5, 6, 7]) ∧
  (∀ (s : State) (n : Ix2), let q := s.screen n
    let flag := fun (n : Nat) (v : Bool) => if v then 2 ^ n else 0
    screenImage n s = [byte n.num, byte q.rake.code,
        byte (flag 0 q.blocked + flag 1 q.homed + flag 2 q.pending + flag 3 q.diffStale)] ++
      bytes2 q.differential ++ bytes2 q.position ++
      (match q.op with
        | .none => [0, 0, 0, 0]
        | .cycle => [1, 0, 0, 0]
        | .home automatic => [if automatic then 5 else 2, 0, 0, 0]
        | .position p => 3 :: 0 :: bytes2 p
        | .finish k => [4, byte k, 0, 0]) ++
      [match q.saved with | some st => byte st.code | none => 255,
        byte (flag 0 (decide (q.leg = .up)) + flag 1 (decide (q.interrupted = .up)))] ++
      bytes2 q.upCount ++ [byte q.retries, byte q.cycles,
        byte (flag 0 q.locks.jam + flag 1 q.locks.overload + flag 2 q.locks.travel + flag 4 q.acks.jam +
          flag 5 q.acks.overload + flag 6 q.acks.travel)] ++
      bytes4 q.lastCycleEnd ++ bytes2 (tenths q.jamTimer) ++ bytes2 (tenths q.dwell) ++ bytes2 (tenths q.reverse) ++
      (match q.completion with
        | some c => byte (flag 0 c.overwritten + 2) :: c.image.drop 1
        | none => List.replicate 11 0) ∧
    (∀ c, q.completion = some c → c.image = [if c.overwritten then 1 else 0, byte c.operation, byte c.outcome.code] ++
      bytes2 c.position ++ [byte c.cycles] ++ bytes4 c.time.secs ++ [byte c.time.ticks]) ∧
    (tenths none = 0 ∧ ∀ a, q.jamTimer = some a →
      tenths (some a) = a / 10 ∨ (a % 10 ≠ 0 ∧ tenths (some a) = a / 10 + 1)) ∧
    [RakeState.unhomed, .idle, .waiting, .homing, .descending, .gripping, .ascending, .discharging, .reversing,
      .positioning, .held, .paused, .locked].map RakeState.code = [0, 1, 2, 3, 4, 5, 6, 7, 8, 9, 10, 11, 12] ∧
    [RakeOutcome.complete, .jammed, .overload, .travel, .superseded].map RakeOutcome.code = [0, 1, 2, 3, 4]) ∧
  (∀ s : State,
    let flag := fun (n : Nat) (v : Bool) => if v then 2 ^ n else 0
    let b := s.balance
    let w := s.power
    let d := s.shown
    let mark := fun p => (s.pump p).shedMark
    let called := fun p => d.called.get p
    let held := fun p => byte ((s.pump p).claim.getD 0)
    let rake := fun n => [byte (s.screen n).rake.code] ++ bytes2 (s.screen n).differential
    let lamp := fun i => (s.ann.lamps.getD i .off).code
    let lamps := fun i => byte (lamp i + 4 * lamp (i + 1) + 16 * lamp (i + 2) + 64 * lamp (i + 3))
    summaryImage s =
      (bytes4 s.clock.uptime.secs ++ [byte s.clock.uptime.ticks] ++ bytes4 s.clock.station.secs ++
        [byte s.clock.station.ticks,
          byte (flag 0 s.clock.set + flag 1 (decide (s.level.mode = .float)) + flag 2 d.low + flag 3 d.high +
            flag 4 d.highHigh + flag 5 b.volume.isNone + flag 6 b.aboveTable + flag 7 b.headStale)]) ++
      (bytes2 (s.level.wellLevel.getD 65535) ++ bytes4 (b.volume.getD 0) ++ bytes2 b.head ++
        bytes2 ((s.pump .i1).flow + (s.pump .i2).flow + (s.pump .i3).flow + (s.pump .i4).flow + (s.pump .i5).flow +
          (s.pump .i6).flow) ++ bytes2 b.inflow ++ [byte (b.cls.code + flag 7 b.inflowStale)] ++
        bytes2 (b.weirs.get .i1).flow ++ [byte (b.weirs.get .i1).status.code, byte (d.spills.get .i1).code] ++
        bytes2 (b.weirs.get .i2).flow ++ [byte (b.weirs.get .i2).status.code, byte (d.spills.get .i2).code]) ++
      ([byte d.wanted] ++ d.ladder.map (fun p => byte p.num) ++
        [byte (flag 0 (called .i1) + flag 1 (called .i2) + flag 2 (called .i3) + flag 3 (called .i4) +
          flag 4 (called .i5) + flag 5 (called .i6) + flag 6 d.rotationFixed + flag 7 d.drawdownActive)] ++
        bytes2 d.drawdown ++ bytes2 d.drawdownMinutes) ++
      ([byte w.source.code,
          byte (flag 0 w.transferring + flag 1 w.ack + flag 2 (Ix6.all.all fun p => decide ((s.pump p).seq ≠ .starting)) +
            flag 3 s.ann.horn + flag 4 s.ann.silence + flag 5 s.ann.beacon + flag 6 s.ann.relay),
          byte (budget s), byte (externalLoad s), byte (budget s - externalLoad s), byte (claimSum s),
          byte (free s).toNat] ++
        [held .i1, held .i2, held .i3, held .i4, held .i5, held .i6, byte ((s.screen .i1).claim.getD 0),
          byte ((s.screen .i2).claim.getD 0)] ++
        w.queue.map (fun c => match c with | .pump p => byte p.num | .rake n => byte (16 + n.num)) ++
        List.replicate (8 - w.queue.length) 0 ++
        [byte ((w.stagger.getD 0 + 99) / 100),
          byte (flag 0 (mark .i1) + flag 1 (mark .i2) + flag 2 (mark .i3) + flag 3 (mark .i4) + flag 4 (mark .i5) +
            flag 5 (mark .i6) + flag 6 (s.screen .i1).shedMark + flag 7 (s.screen .i2).shedMark)]) ++
      (rake .i1 ++ rake .i2 ++
        [byte (flag 0 (s.screen .i1).blocked + flag 1 (s.screen .i1).diffStale + flag 2 (s.screen .i2).blocked +
            flag 3 (s.screen .i2).diffStale), lamps 0, lamps 4, lamps 8, lamps 12, byte s.table.seatedCount] ++
        bytes4 s.table.raisedSinceClear ++ bytes4 s.table.lastClear.secs ++
        [byte s.table.lastClear.ticks, byte s.link.state.code,
          byte (flag 0 s.port.flags.condition + flag 1 s.port.flags.screen + flag 2 s.port.flags.power +
            flag 3 s.port.flags.link + flag 4 s.port.flags.settings + flag 5 s.port.flags.balance)]) ∧
    (d.ladder.length = 6 → w.queue.length ≤ 8 → (summaryImage s).length = 92) ∧
    [InflowClass.dry, .wet, .storm].map InflowClass.code = [0, 1, 2] ∧
    [FlowStatus.current, .saturated, .notComputed].map FlowStatus.code = [0, 1, 2] ∧
    [SpillState.dry, .spilling, .settling].map SpillState.code = [0, 1, 2] ∧
    [Source.mains, .generator, .none].map Source.code = [0, 1, 2] ∧
    [Aspect.off, .steady, .flash].map Aspect.code = [0, 1, 2] ∧
    [LinkState.offline, .joining, .online, .quiet, .lost].map LinkState.code = [0, 1, 2, 3, 4] ∧
    [9600, 19200, 38400, 57600, 115200].map baudCode = [0, 1, 2, 3, 4]) ∧
  (∀ s : State, let c := fun n => s.level.channels.get n
    let entry := fun n => bytes2 (c n).raw ++ [byte (c n).sample.code, byte (c n).period.code] ++
      bytes2 (if (c n).period = .none then 0 else (c n).held.getD 0) ++ [byte (c n).invalid, byte (c n).valid]
    channelsImage s.level = entry .i1 ++ entry .i2 ++ entry .i3 ++ entry .i4 ++ entry .i5 ++ entry .i6 ++
      bytes2 s.level.refRaw ++ [byte s.level.refSample.code, byte s.level.discarded, byte s.level.good,
        byte s.level.rounds] ∧
    [SampleStatus.valid, .under, .broken, .over, .discarded, .none].map SampleStatus.code = [0, 1, 2, 3, 4, 5] ∧
    [PeriodStatus.valid, .stale, .none].map PeriodStatus.code = [0, 1, 2])

/-! The Town Link -/

/-- What a frame that is taken as a request meets (R177, R183): dropped in OFFLINE, JOINING and LOST; with four requests
outstanding, or its tag outstanding, discarded with LINK-PROTOCOL raised, the slots tested before the tag, which is the
model's choice (assumption 45); of a kind that names no request answered
INVALID-COMMAND, and with a payload of the wrong length OUT-OF-RANGE. A QUIET link wakes first.

A protocol fault (R189): the cause of LINK-PROTOCOL is present, its acknowledged mark clear where the cause was absent, and
the raise is offered with the reason and the tag or the kind. -/
def Obligations.RequestAdmission : Prop :=
  (∀ (s : State) (k tag : Byte) (p : List Byte), k ≠ 2 → k ≠ 3 → k ≠ 4 →
    let rows : List (Nat × Instr) :=
      [(0x10, .lookUpByHandle tag p), (0x11, .lookUpByKey tag p), (0x12, .page tag p), (0x13, .townAcknowledge tag p),
       (0x14, .townRetire tag p), (0x15, .summary tag p), (0x16, .takeTally tag p), (0x17, .inhibit tag p),
       (0x18, .drawdown tag p), (0x19, .quietAsk tag p), (k.toNat, .invalidRequest k tag p)]
    ∀ row ∈ rows,
      (s.link.state = .offline → exec row.2 s = .next s) ∧
      (s.link.state = .joining ∨ s.link.state = .lost → exec row.2 s = .next (conclude (hunt s))) ∧
      (s.link.state = .online ∨ s.link.state = .quiet →
        (4 ≤ s.link.requests.length → exec row.2 s = .next (conclude (protocolFault 2 tag s.woken))) ∧
        (s.link.requests.length < 4 → (∃ r ∈ s.link.requests, r.tag = tag) →
          exec row.2 s = .next (conclude (protocolFault 3 tag s.woken)))) ∧
      (Admits tag s → namesRequest row.1 = false →
        exec row.2 s = .next (conclude (s.woken.responded (byte row.1) tag [9]))) ∧
      (Admits tag s → namesRequest row.1 = true → p.length ≠ requestLength row.1 →
        exec row.2 s = .next (conclude (s.woken.responded (byte row.1) tag [6])))) ∧
  (∀ (s : State) (reason : Nat) (b : Byte),
    protocolFault reason b s = raise ⟨.linkProtocol, 0⟩ .minor [byte reason, b] (s.onLink fun l => { l with
      protocolCause := true, protocolAck := l.protocolAck && l.protocolCause }) ∧
    (protocolFault reason b s).link.protocolCause = true ∧
    (s.link.protocolCause = false → (protocolFault reason b s).link.protocolAck = false))

/-- The requests that read, and TAKE-TALLY (R33, R122, R142, R184, R185): each response carries what the table, the
station or the tally holds; the tally given is zero after it and the BALANCE flag set; a reading request changes
nothing. -/
def Obligations.ReadingRequests : Prop :=
  ∀ (s : State) (tag a b c : Byte), Admits tag s → let u := s.woken
    let answers := fun (i : Instr) (kind : Byte) (bs : List Byte) =>
      exec i s = .next (conclude (u.responded kind tag bs))
    (47 < a.toNat → answers (.lookUpByHandle tag [a, b]) 0x10 [6]) ∧
    (a.toNat ≤ 47 → ((s.table.slot a.toNat).record = none ∨ (s.table.slot a.toNat).gen ≠ b.toNat) →
      answers (.lookUpByHandle tag [a, b]) 0x10 [2]) ∧
    (∀ r, a.toNat ≤ 47 → (s.table.slot a.toNat).record = some r → (s.table.slot a.toNat).gen = b.toNat →
      answers (.lookUpByHandle tag [a, b]) 0x10 (0 :: recordImage a.toNat b.toNat r)) ∧
    (key? a.toNat b.toNat c.toNat = none → answers (.lookUpByKey tag [a, b, c]) 0x11 [6]) ∧
    (∀ q i, key? a.toNat b.toNat c.toNat = some q → s.table.seatedAt? q = some i →
      answers (.lookUpByKey tag [a, b, c]) 0x11 (0 :: s.table.image i)) ∧
    (∀ q, key? a.toNat b.toNat c.toNat = some q → s.table.seatedAt? q = none →
      answers (.lookUpByKey tag [a, b, c]) 0x11
        [3, byte (match s.table.waitsAt? q with | some i => i + 1 | none => 0)]) ∧
    ((47 < a.toNat ∨ b.toNat < 1 ∨ 4 < b.toNat) → answers (.page tag [a, b]) 0x12 [6]) ∧
    (a.toNat ≤ 47 → 1 ≤ b.toNat → b.toNat ≤ 4 →
      let from_ := (List.range 48).filter fun j => decide (a.toNat ≤ j) && (s.table.slot j).record.isSome
      answers (.page tag [a, b]) 0x12 (0 :: byte ((from_.drop b.toNat).headD 255) ::
        ((from_.take b.toNat).map s.table.image).flatten)) ∧
    answers (.summary tag []) 0x15 (0 :: summaryImage u) ∧
    (∀ w : Ix2, a.toNat = w.num → exec (.takeTally tag [a]) s = .next (conclude ((setFlag .balance (u.onBalance fun x =>
      { x with weirs := x.weirs.modify w fun y => { y with tally := ⟨0, 0, 0, 0, false⟩ } })).responded 0x16 tag
        (0 :: tallyImage (s.balance.weirs.get w).tally)))) ∧
    ((∀ w : Ix2, a.toNat ≠ w.num) → answers (.takeTally tag [a]) 0x16 [6])

/-- INHIBIT and DRAWDOWN from the town (R52, R53, R54): the town mark is set or cleared, DONE whether or not it stood so,
OUT-OF-RANGE for no pump or neither on nor off, and PUMP-INHIBITED is raised with the town as its source, or returned,
where the panel's mark is clear (its order beside a return of POWER-SHED: assumption 14). A drawdown is REFUSED in FLOAT
mode, ended by a 0, its DRAWDOWN returned, else in force at no more than 2000 mm and 720 minutes, DRAWDOWN raised where none
was active. -/
def Obligations.StationRequests : Prop :=
  ∀ (s : State) (tag a b : Byte) (d m : BitVec 16), Admits tag s → let u := s.woken
    (∀ p : Ix6, a.toNat = p.num →
      ((s.pump p).townMark = false → ∃ t : State, exec (.inhibit tag [a, 1]) s = .next (conclude (t.responded 0x17 tag [0])) ∧
        t = addReason p .townInhibit (if (s.pump p).panelMark then [] else [⟨.pumpInhibited, p.num, some [2]⟩])
          (u.onPump p fun q => { q with townMark := true }) ∧
        (t.pump p).townMark = true ∧ (t.pump p).locks = { (s.pump p).locks with townInhibit := true } ∧
        (t.pump p).panelMark = (s.pump p).panelMark) ∧
      ((s.pump p).townMark = true → ∃ t : State, exec (.inhibit tag [a, 0]) s = .next (conclude (t.responded 0x17 tag [0])) ∧
        (let v := u.onPump p fun q => { q with townMark := false, locks := { q.locks with townInhibit := false } }
         t = if (s.pump p).panelMark then v else returnKey ⟨.pumpInhibited, p.num⟩ v) ∧
        (t.pump p).townMark = false ∧ (t.pump p).locks = { (s.pump p).locks with townInhibit := false } ∧
        (t.pump p).panelMark = (s.pump p).panelMark) ∧
      ((s.pump p).townMark = true →
        exec (.inhibit tag [a, 1]) s = .next (conclude (u.responded 0x17 tag [0]))) ∧
      ((s.pump p).townMark = false →
        exec (.inhibit tag [a, 0]) s = .next (conclude (u.responded 0x17 tag [0]))) ∧
      (1 < b.toNat → exec (.inhibit tag [a, b]) s = .next (conclude (u.responded 0x17 tag [6])))) ∧
    ((∀ p : Ix6, a.toNat ≠ p.num) → exec (.inhibit tag [a, b]) s = .next (conclude (u.responded 0x17 tag [6]))) ∧
    (let i := Instr.drawdown tag (bytes2 d.toNat ++ bytes2 m.toNat)
     let given := fun (t : State) (x : Nat) (y : Nat) =>
       exec i s = .next (conclude (t.responded 0x18 tag (0 :: (bytes2 x ++ bytes2 y))))
     (s.level.mode = .float → exec i s = .next (conclude (u.responded 0x18 tag [14, 1]))) ∧
     (s.level.mode = .level → d = 0 ∨ m = 0 →
       (s.duty.drawdownTimer = none → given u 0 0) ∧
       (s.duty.drawdownTimer ≠ none → given (returnKey ⟨.drawdown, 0⟩
         (u.onDuty fun x => { x with drawdown := 0, drawdownTimer := none })) 0 0)) ∧
     (s.level.mode = .level → d ≠ 0 → m ≠ 0 →
       let x := min d.toNat 2000
       let y := min m.toNat 720
       let v := u.onDuty fun q => { q with drawdown := x, drawdownTimer := some (6000 * y) }
       (s.duty.drawdownTimer ≠ none → given v x y) ∧
       (s.duty.drawdownTimer = none →
         given (raise ⟨.drawdown, 0⟩ .advisory (bytes2 x ++ bytes2 y) v) x y)))

/-- QUIET-ASK and the central station's WAKE (R186, R187): the first of the four tests that fails is the reason of a
refusal, and the link stays ONLINE; where all pass it is QUIET with 18 and 6 heartbeat periods on its timers and its
credits kept. A WAKE in QUIET takes it to ONLINE with 3 and 1, a STATUS owed; any other WAKE is dropped. -/
def Obligations.QuietAndWake : Prop :=
  ∀ (s : State) (tag : Byte),
    (Admits tag s → let u := s.woken
      let undone := u.table.records.any fun r =>
        decide (2 ≤ r.severity.code) && (r.state = .raised || r.state = .returned)
      let refused := fun (reason : Byte) =>
        exec (.quietAsk tag []) s = .next (conclude (u.responded 0x19 tag [14, reason]))
      (s.balance.cls ≠ .dry → refused 2) ∧
      (s.balance.cls = .dry → undone = true → refused 3) ∧
      (s.balance.cls = .dry → undone = false → s.duty.drawdownTimer ≠ none → refused 4) ∧
      (s.balance.cls = .dry → undone = false → s.duty.drawdownTimer = none → s.table.owing ≠ [] → refused 5) ∧
      (s.balance.cls = .dry → undone = false → s.duty.drawdownTimer = none → s.table.owing = [] →
        let p := s.link.period.getD 0
        exec (.quietAsk tag []) s = .next (conclude ((setFlag .link (u.onLink fun l => { l with
          state := .quiet, heartbeatTimer := some (100 * (18 * p)), statusTimer := some (100 * (6 * p)) })).responded
            0x19 tag [0])))) ∧
    (s.link.state = .quiet → let p := s.link.period.getD 0
      exec (.wake []) s = .next (conclude (setFlag .link ((hunt s).onLink fun l => { l with
        state := .online, heartbeatTimer := some (100 * (3 * p)), statusOwed := true
        statusTimer := some (100 * p) })))) ∧
    (s.link.state = .online ∨ s.link.state = .joining ∨ s.link.state = .lost →
      exec (.wake []) s = .next (conclude (hunt s))) ∧
    (s.link.state = .offline → exec (.wake []) s = .next s)

/-- JOIN-ACCEPT (R178): a valid one in JOINING takes the link to ONLINE with its grant, period and credits, the offers
ended, the heartbeat timer at 3 periods, a STATUS timer at one, the station clock set where accept_town_time is, and the
causes of LINK-PROTOCOL and LINK-LOST absent and their returns offered, every town-current flag cleared and every gone-owed
mark dropped (R144); an invalid one raises LINK-PROTOCOL; in any other state it is dropped. That offers still owed end with
the join is the model's choice (assumption 23).

HEARTBEAT (R179): in ONLINE and QUIET the count returned is added to the credits up to the grant, a sum above it being
a protocol fault, and the timer starts afresh at 3 or 18 periods; one of the wrong length is a protocol fault and leaves
the timer; in the other states it is dropped. -/
def Obligations.JoinAcceptAndHeartbeat : Prop :=
  (∀ (s : State) (secs : BitVec 32) (ticks grant period : Byte) (p : List Byte),
     (s.link.state = .joining →
       (p = bytes4 secs.toNat ++ [ticks, grant, period] → ticks.toNat ≤ 99 → 1 ≤ grant.toNat → grant.toNat ≤ 8 →
         10 ≤ period.toNat → period.toNat ≤ 60 →
         ∃ t, exec (.joinAccept p) s = .next t ∧
           t = conclude (join ⟨secs.toNat, ticks.toNat⟩ grant.toNat period.toNat (hunt s)) ∧
           t.link.state = .online ∧ t.link.grant = some grant.toNat ∧ t.link.period = some period.toNat ∧
           t.link.credits = grant.toNat ∧ t.link.offersOwed = 0 ∧ t.link.offerTimer = none ∧
           t.link.heartbeatTimer = some (100 * (3 * period.toNat)) ∧ t.link.statusTimer = some (100 * period.toNat) ∧
           t.link.lostCause = false ∧ t.link.protocolCause = false ∧
           (∀ i, i < 48 → (t.table.slot i).goneOwed = none ∧
             ∀ r, (t.table.slot i).record = some r → r.townCurrent = false) ∧
           t.clock = (if s.running.acceptTownTime then ⟨s.clock.uptime, ⟨secs.toNat, ticks.toNat⟩, true⟩ else s.clock) ∧
           t.port.flags.link = true ∧ t.level = s.level ∧ t.balance = s.balance ∧ t.store = s.store) ∧
       ((p.length ≠ 7 ∨ (p = bytes4 secs.toNat ++ [ticks, grant, period] ∧
           (99 < ticks.toNat ∨ grant.toNat < 1 ∨ 8 < grant.toNat ∨ period.toNat < 10 ∨ 60 < period.toNat))) →
         exec (.joinAccept p) s = .next (conclude (protocolFault 4 2 (hunt s))))) ∧
     (s.link.state = .online ∨ s.link.state = .quiet ∨ s.link.state = .lost →
       exec (.joinAccept p) s = .next (conclude (hunt s))) ∧
     (s.link.state = .offline → exec (.joinAccept p) s = .next s)) ∧
  (∀ (s : State) (town : Stamp) (grant period : Nat),
     let online := setFlag .link (s.onLink fun l => { l with
       state := .online, offerTimer := none, offersOwed := 0, grant := some grant, period := some period
       credits := grant })
     let timed := if s.running.acceptTownTime then online.onClock fun c => { c with station := town, set := true }
       else online
     let cleared := timed.onTable fun t => { t with slots := t.slots.map fun sl =>
       { sl with goneOwed := none, record := sl.record.map fun r => { r with townCurrent := false } } }
     let freed := if s.link.protocolCause then
         returnKey ⟨.linkProtocol, 0⟩ (cleared.onLink fun l => { l with protocolCause := false })
       else cleared
     let found := if s.link.lostCause then
         returnKey ⟨.linkLost, 0⟩ (freed.onLink fun l => { l with lostCause := false })
       else freed
     join town grant period s = found.onLink fun l => { l with
       heartbeatTimer := some (100 * (3 * period)), statusOwed := true, statusTimer := some (100 * period) }) ∧
  (∀ (s : State) (b : Byte) (p : List Byte),
     (s.link.state = .online ∨ s.link.state = .quiet →
       let grant := s.link.grant.getD 0
       let sum := s.link.credits + b.toNat
       let restart := fun (t : State) => t.onLink fun l => { l with
         heartbeatTimer := some (100 * ((if l.state = .quiet then 18 else 3) * s.link.period.getD 0)) }
       (sum ≤ grant → exec (.heartbeat [b]) s =
         .next (conclude (restart ((hunt s).onLink fun l => { l with credits := sum })))) ∧
       (grant < sum → exec (.heartbeat [b]) s =
         .next (conclude (restart (protocolFault 1 3 ((hunt s).onLink fun l => { l with credits := grant }))))) ∧
       (p.length ≠ 1 → exec (.heartbeat p) s = .next (conclude (protocolFault 4 3 (hunt s))))) ∧
     (s.link.state = .joining ∨ s.link.state = .lost → exec (.heartbeat p) s = .next (conclude (hunt s))) ∧
     (s.link.state = .offline → exec (.heartbeat p) s = .next s))

/-- The heartbeat timer's expiry (R180, R188): the link is LOST with nothing owed and nothing outstanding, its timers
stopped but the loss timer of 10 s, every town inhibit cleared and the drawdown ended, the LINK flag set; a frame on the
line is finished. PUMP-INHIBITED is returned for each pump that loses its town mark and keeps no panel mark (R52), DRAWDOWN
where one was active (R54), and LINK-LOST, MAJOR, is raised with the state left and the heartbeat period of the join; no
rule orders these edges, and their order is that of assumption 14. Nothing else moves but what the event's end moves. -/
def Obligations.LinkIsLost : Prop :=
  (∀ s : State, s.link.heartbeatTimer = some 0 → s.link.state = .online ∨ s.link.state = .quiet →
    let inhibit := fun p : Ix6 => if (s.pump p).townMark = true ∧ (s.pump p).panelMark = false
      then [(⟨.pumpInhibited, p.num, none⟩ : Edge)] else []
    let edges := inhibit .i1 ++ inhibit .i2 ++ inhibit .i3 ++ inhibit .i4 ++ inhibit .i5 ++ inhibit .i6 ++
      (if s.duty.drawdownTimer = none then [] else [⟨.drawdown, 0, none⟩]) ++
      [⟨.linkLost, 0, some [if s.link.state = .online then 2 else 3, byte (s.link.period.getD 0)]⟩]
    let u := setFlag .link { s with
      pumps := s.pumps.map fun q => { q with townMark := false, locks := { q.locks with townInhibit := false } }
      duty := { s.duty with
        drawdown := if s.duty.drawdownTimer = none then s.duty.drawdown else 0, drawdownTimer := none }
      link := { s.link with
        state := .lost, credits := 0, grant := none, period := none, requests := [], statusOwed := false
        wakesOwed := 0, heartbeatTimer := none, statusTimer := none, lossTimer := some 1000, lostCause := true } }
    ∃ t, exec .heartbeatTimerExpiry s = .next t ∧ t = conclude (offerEdges edges u) ∧ t.link = u.link ∧
      (∀ p, (t.pump p).townMark = false ∧ (t.pump p).locks = { (s.pump p).locks with townInhibit := false } ∧
        (t.pump p).panelMark = (s.pump p).panelMark) ∧
      t.duty.drawdownTimer = none ∧ (s.duty.drawdownTimer ≠ none → t.duty.drawdown = 0) ∧
      t.port.flags.link = true ∧ t.level = s.level ∧ t.balance = s.balance ∧ t.store = s.store ∧ t.clock = s.clock) ∧
  (∀ (s : State) (x : List Byte) (k : Kind) (n : Nat),
    offerEdge ⟨.linkLost, 0, some x⟩ s = raise ⟨.linkLost, 0⟩ .major x s ∧
    offerEdge ⟨k, n, none⟩ s = returnKey ⟨k, n⟩ s)

/-- The other timers of the link and the sent event (R175, R177, R180, R183, R188): an offer or a STATUS is owed and its
timer starts again; LOST goes to JOINING; a frame sent frees the transmitter and its request's slot. Each then lets a free
transmitter choose. That offers owed are counted is the model's choice (assumption 23). -/
def Obligations.LinkTimers : Prop :=
  ∀ s : State, let p := s.link.period.getD 0
    (s.link.offerTimer = some 0 → s.link.state = .joining →
      exec .offerTimerExpiry s = .next (transmit (s.onLink fun l => { l with
        offersOwed := s.link.offersOwed + 1, offerTimer := some 500 }))) ∧
    (s.link.statusTimer = some 0 → s.link.state = .online →
      exec .statusTimerExpiry s = .next (transmit (s.onLink fun l => { l with
        statusOwed := true, statusTimer := some (100 * p) }))) ∧
    (s.link.statusTimer = some 0 → s.link.state = .quiet →
      exec .statusTimerExpiry s = .next (transmit (s.onLink fun l => { l with
        statusOwed := true, statusTimer := some (100 * (6 * p)) }))) ∧
    (s.link.lossTimer = some 0 → s.link.state = .lost →
      exec .lossTimerExpiry s = .next (transmit (setFlag .link (s.onLink fun l => { l with
        state := .joining, baud := s.running.linkBaud, credits := 0, grant := none, requests := []
        heartbeatTimer := none, statusTimer := none, lossTimer := none
        offersOwed := s.link.offersOwed + 1, offerTimer := some 500 })))) ∧
    (s.link.sending ≠ none →
      exec .frameSent s = .next (transmit (s.onLink fun l => { l with
        sending := none, requests := l.requests.filter fun r => !r.onLine })))

/-- The transmitter's choice (R175, R182): a frame on the line stands; else a JOIN-OFFER in JOINING, and in ONLINE and QUIET
a WAKE, the earliest response, a STATUS, and in ONLINE with credits the notice of the smallest change order, which spends
one credit and makes the record town-current or drops the gone mark. That offers and wakes owed are counts that fall by one
(assumption 23), and that a JOIN-OFFER is formed as it is taken (assumption 38), is the model's choice. -/
def Obligations.TransmitterOrder : Prop :=
  ∀ s : State, let l := s.link
    let puts := fun (kind tag : Byte) (payload : List Byte) (m : Link) =>
      { m with sending := some ⟨kind, tag, payload⟩ }
    let up := l.state = .online ∨ l.state = .quiet
    (l.sending ≠ none → transmit s = s) ∧
    (l.sending = none →
      (l.state = .offline ∨ l.state = .lost ∨ (l.state = .joining ∧ l.offersOwed = 0) → transmit s = s) ∧
      (l.state = .joining → l.offersOwed ≠ 0 → transmit s = { s with
        link := puts 1 0 (bytes2 s.running.stationId ++ bytes4 s.clock.uptime.secs ++ [48, 4])
          { l with offersOwed := l.offersOwed - 1 } }) ∧
      (up → l.wakesOwed ≠ 0 → transmit s = { s with link := puts 4 0 [] { l with wakesOwed := l.wakesOwed - 1 } }) ∧
      (up → l.wakesOwed = 0 → ∀ a r b, l.requests = a ++ r :: b → (∀ x ∈ a, x.onLine = true) → r.onLine = false →
        transmit s = { s with
          link := puts 8 r.tag r.response { l with requests := a ++ { r with onLine := true } :: b } }) ∧
      (up → l.wakesOwed = 0 → (∀ x ∈ l.requests, x.onLine = true) →
        (l.statusOwed = true →
          transmit s = { s with link := puts 5 0 (summaryImage s) { l with statusOwed := false } }) ∧
        (l.statusOwed = false → l.state = .quiet ∨ l.credits = 0 ∨ s.table.owing = [] → transmit s = s) ∧
        (l.statusOwed = false → l.state = .online → l.credits ≠ 0 → ∀ o ∈ s.table.owing,
          (∀ x ∈ s.table.owing, x ≠ o → o.order < x.order) →
          let sl := s.table.slot o.slot
          (o.isRecord = true → transmit s = { s with
            link := puts 6 0 (s.table.image o.slot) { l with credits := l.credits - 1 }
            table := { s.table with
              slots := s.table.slots.set o.slot
                { sl with record := sl.record.map fun r => { r with townCurrent := true } } } }) ∧
          (o.isRecord = false → transmit s = { s with
            link := puts 7 0 [byte o.slot, byte sl.gen] { l with credits := l.credits - 1 }
            table := { s.table with slots := s.table.slots.set o.slot { sl with goneOwed := none } } }))))

/-- The receiver (R174): OFFLINE discards every byte; hunting, only 0xA5 begins a frame; a length above 128 and a bad check
are counted and discarded; each byte of a frame restarts the inter-byte timer at 50 ms, and its expiry and a framing error
discard the partial frame uncounted. -/
def Obligations.ReceiverEvents : Prop :=
  ∀ (s : State) (b : Byte),
    let hunting := fun (t : State) => t.onLink fun l => { l with assembly := none, interByte := none }
    let bad := hunting (s.onLink fun l => { l with badFrames := min 65535 (l.badFrames + 1) })
    let kept := fun (bs : List Byte) => s.onLink fun l => { l with assembly := some bs, interByte := some 5 }
    (s.link.state = .offline →
      exec (.byteReceived b) s = .next s ∧ exec .frameCheckFail s = .next s ∧ exec .framingError s = .next s) ∧
    (s.link.interByte = some 0 → exec .interByteTimerExpiry s = .next (hunting s)) ∧
    (s.link.state ≠ .offline →
      exec .frameCheckFail s = .next bad ∧ exec .framingError s = .next (hunting s) ∧
      (s.link.assembly = none → exec (.byteReceived b) s = .next (if b = 0xA5 then kept [] else s)) ∧
      (s.link.assembly = some [] →
        exec (.byteReceived b) s = .next (if 128 < b.toNat then bad else kept [b])) ∧
      (∀ len rest, s.link.assembly = some (len :: rest) → len.toNat ≤ 128 →
        (rest.length + 2 < len.toNat + 5 → exec (.byteReceived b) s = .next (kept (len :: rest ++ [b])))))

/-- A frame's bytes, from its start byte to its check, received one after another while the receiver hunts, are the
frame's arrival (R174, R201): kind, tag and payload come through whole. The same bytes with any other check are one bad
frame and nothing else. -/
def Obligations.FrameBytesArrive : Prop :=
  ∀ (s : State) (kind tag : Byte) (p : List Byte) (check : BitVec 16), p.length ≤ 128 → s.link.state ≠ .offline →
    s.link.assembly = none →
    let body := byte p.length :: kind :: tag :: p
    let received := fun (c : BitVec 16) =>
      (0xA5 :: (body ++ bytes2 c.toNat)).foldl (fun s b => receiveByte b s) s
    received (crc body) = arrive kind tag p s ∧
    (check ≠ crc body → received check = s.onLink fun l => { l with
      assembly := none, interByte := none, badFrames := min 65535 (l.badFrames + 1) })

/-- The check (R201): from 0xFFFF, each byte enters the upper eight bits by exclusive-or, then eight left shifts, each
combined with 0x1021 where the bit shifted out was 1. Over the bytes 0x31 to 0x39 it is 0x29B1. -/
def Obligations.CheckRegister : Prop :=
  crc [] = 0xFFFF ∧ crc [0x31, 0x32, 0x33, 0x34, 0x35, 0x36, 0x37, 0x38, 0x39] = 0x29B1 ∧
  ∀ (bs : List Byte) (b : Byte),
    let shift := fun (c : BitVec 16) => if c.getLsbD 15 then (c <<< 1) ^^^ 0x1021 else c <<< 1
    crc (bs ++ [b]) =
      shift (shift (shift (shift (shift (shift (shift (shift (crc bs ^^^ (b.setWidth 16 <<< 8)))))))))

/-! Settings, store and clock -/

/-- LOAD SETTINGS, DISCARD SETTINGS and SET CLOCK (R193, R197): a value in its field's range enters the staging set and no
other field moves; out of range, or for no field, OUT-OF-RANGE; a discard copies the running set; the station clock is set
with its flag where the ticks are at most 99. -/
def Obligations.SettingsAndClockCommands : Prop :=
  ∀ (s : State) (c k : Byte) (v : BitVec 32) (ticks : Byte), s.portIdle →
    (∀ r, fieldRange? c.toNat k.toNat = some r →
      (r.holds v.toNat = true → exec (.loadSettings c k v) s = .next
        ((s.onStore fun st => { st with staging := st.staging.put c.toNat k.toNat v.toNat }).answered [0])) ∧
      (r.holds v.toNat = false → exec (.loadSettings c k v) s = .next (s.answered [6])) ∧
      ((∀ n, (s.store.staging.sec n).length = (sectionRanges n).length) →
        (s.store.staging.put c.toNat k.toNat v.toNat).get c.toNat k.toNat = v.toNat) ∧
      (∀ n j, 1 ≤ j → (n ≠ c.toNat ∨ j ≠ k.toNat) →
        (s.store.staging.put c.toNat k.toNat v.toNat).get n j = s.store.staging.get n j)) ∧
    (fieldRange? c.toNat k.toNat = none → exec (.loadSettings c k v) s = .next (s.answered [6])) ∧
    exec .discardSettings s =
      .next ((s.onStore fun st => { st with staging := s.store.running }).answered [0]) ∧
    (ticks.toNat ≤ 99 → exec (.setClock v ticks) s = .next
      ((s.onClock fun x => { x with station := ⟨v.toNat, ticks.toNat⟩, set := true }).answered [0])) ∧
    (99 < ticks.toNat → exec (.setClock v ticks) s = .next (s.answered [6]))

/-- COMMIT SETTINGS (R194, R195, R196): WRONG-STATE while a store write is in hand; SETTINGS-REJECTED with the field of the
first relation that fails, the SETTINGS flag set; else the running set is the staging set, the port is EXECUTING, the
write's time-out runs at 250 ms, the old volume goes where a table point moved, and the link goes OFFLINE or JOINING as the
set enables it.

The relations (R194), each with its field by section and number: the setpoints, the storage table, the class thresholds,
the starts and stops, each pump's curve, each screen's levels and intervals, each lamp's assignment.

What an applied commit does (R36, R58, R118, R137, R191): each start history is trimmed to its limit, oldest first, and each
starts-limited state formed again with its edge; a position above the new limit is set to it; forbidden shelves end; the
link takes its values. Every timer that runs keeps its time, and claims keep their units (R79, R94), and the outputs are
formed again at the event's end (R152). No rule orders the changes of records that one commit makes, its edges and the
shelves it ends, so they go in slot order, and on one slot the edge before the unshelving (R123, assumption 14). A link that is disabled goes OFFLINE: its timers stop, what
it owes is dropped, its grant and period are none, and LINK-LOST's cause is absent and its return offered; from ONLINE and
QUIET it passes through LOST, with the returns of that entry (R188). That a position set to its limit ends no POSITION is
the model's choice (assumption 36), and so is that a frame in assembly is kept at an entry to OFFLINE (assumption 40). -/
def Obligations.CommitSettings : Prop :=
  (∀ s : State, s.portIdle →
    (s.store.writing ≠ none → exec .commitSettings s = .next (s.answered [7])) ∧
    (∀ f, s.store.writing = none → s.store.staging.firstBroken? = some f →
      exec .commitSettings s = .next ((setFlag .settings s).answered [12, byte f.1, byte f.2])) ∧
    (s.store.writing = none → s.store.staging.firstBroken? = none →
      exec .commitSettings s = .next (conclude ((applyCommit (s.onPort fun p => { p with protocol := false })).onPort
        fun p => { p with phase := .executing })) ∧
      ∃ t, exec .commitSettings s = .next t ∧
        t.store = { s.store with running := s.store.staging, writing := some 25 } ∧
        t.port.phase = .executing ∧ t.port.protocol = false ∧ t.port.flags.settings = true ∧
        t.balance = { s.balance with
          vPrev := if tableMoved s.store.running s.store.staging then none else s.balance.vPrev } ∧
        t.level = s.level ∧ t.clock = s.clock ∧
        (s.store.staging.linkEnable = false → t.link.state = .offline) ∧
        (s.store.staging.linkEnable = true → s.link.state = .offline →
          t.link.state = .joining ∧ t.link.baud = s.store.staging.linkBaud))) ∧
  (∀ (c : Settings) (n : Nat), let v := c.get
    let pumps := (List.range 6).map fun p =>
      (List.range 4).map (fun i => ((4, 18 * p + i + 3), decide (v 4 (18 * p + i + 2) < v 4 (18 * p + i + 3)))) ++
      (List.range 4).map (fun i => ((4, 18 * p + i + 8), decide (v 4 (18 * p + i + 8) ≤ v 4 (18 * p + i + 7))))
    let screens := (List.range 2).map fun n =>
      [((6, 13 * n + 8), decide (v 6 (13 * n + 7) < v 6 (13 * n + 8))),
        ((6, 13 * n + 10), decide (v 6 (13 * n + 10) ≤ v 6 (13 * n + 9))),
        ((6, 13 * n + 11), decide (v 6 (13 * n + 11) ≤ v 6 (13 * n + 10)))]
    let checks : List ((Nat × Nat) × Bool) :=
      [((1, 16), decide (v 1 15 < v 1 16))] ++
      (List.range 7).map (fun i => ((2, i + 2), decide (v 2 (i + 1) < v 2 (i + 2)))) ++
      (List.range 7).map (fun i => ((2, i + 10), decide (v 2 (i + 9) ≤ v 2 (i + 10)))) ++
      [((2, 23), decide (v 2 24 < v 2 23)), ((2, 26), decide (v 2 23 ≤ v 2 26)), ((2, 25), decide (v 2 26 < v 2 25))] ++
      (List.range 5).map (fun k => ((3, k + 2), decide (v 3 (k + 1) < v 3 (k + 2)))) ++
      (List.range 6).map (fun k => ((3, k + 7), decide (v 3 (k + 7) < v 3 (k + 1)))) ++
      pumps.flatten ++ screens.flatten ++
      (List.range 16).map (fun i => ((7, i + 2), lampHolds (v 7 (i + 2))))
    c.firstBroken? = (checks.find? fun x => !x.2).map Prod.fst ∧
    (let type := n / 16777216 % 256
     let cls := n / 65536 % 256
     let number := n / 256 % 256
     (type = 1 → (lampHolds n = true ↔ ∃ k ∈ Kind.all, k.code = n % 256 ∧ k.cls.code = cls ∧
       (number = 0 ∨ cls = 8 ∨ ((cls = 2 ∨ cls = 3) ∧ number ≤ 6) ∨ ((cls = 4 ∨ cls = 5) ∧ number ≤ 2)))) ∧
     (type = 2 → (lampHolds n = true ↔ 1 ≤ number ∧ number ≤ 6)) ∧
     (type ≠ 1 → type ≠ 2 → lampHolds n = true))) ∧
  (∀ s : State, let next := s.store.staging
    let taken := s.onStore fun st => { st with running := next, writing := some 25 }
    let moved := (List.range 8).any fun i =>
      decide (s.running.get 2 (i + 1) ≠ next.get 2 (i + 1) ∨ s.running.get 2 (i + 9) ≠ next.get 2 (i + 9))
    let full := fun p => decide (next.startsPerHour p ≤
      ((s.pump p).history.drop ((s.pump p).history.length - next.startsPerHour p)).length)
    let starts := fun p : Ix6 => if full p = (s.pump p).startsLimited then []
      else [(⟨.pumpStartsLimit, p.num, if full p then some [byte (next.startsPerHour p)] else none⟩ : Edge)]
    let inhibit := fun p : Ix6 => if (s.pump p).townMark = true ∧ (s.pump p).panelMark = false
      then [(⟨.pumpInhibited, p.num, none⟩ : Edge)] else []
    let left := if s.link.state = .online ∨ s.link.state = .quiet then
        inhibit .i1 ++ inhibit .i2 ++ inhibit .i3 ++ inhibit .i4 ++ inhibit .i5 ++ inhibit .i6 ++
        (if s.duty.drawdownTimer = none then [] else [⟨.drawdown, 0, none⟩])
      else []
    let link := if next.linkEnable = true ∨ s.link.state = .offline then []
      else left ++ (if s.link.lostCause then [⟨.linkLost, 0, none⟩] else [])
    let edges := starts .i1 ++ starts .i2 ++ starts .i3 ++ starts .i4 ++ starts .i5 ++ starts .i6 ++ link
    let forbidden := (List.range 48).filter fun i => (s.table.slot i).record.any fun r =>
      r.shelved && !next.permitsShelving r.key.kind
    applyCommit s = setFlag .settings (makeChanges [] (edges.map .edge ++ forbidden.map .unshelve)
      (commitLink (clampPosition .i2 (clampPosition .i1 (trimAllHistories
        (if moved then taken.onBalance fun b => { b with vPrev := none } else taken))))))) ∧
  (∀ (s : State) (n : Ix2), let c := s.running
    let kept := fun p => (s.pump p).history.drop ((s.pump p).history.length - c.startsPerHour p)
    let set := fun p => { s.pump p with
      history := kept p, startsLimited := decide (c.startsPerHour p ≤ (kept p).length) }
    trimAllHistories s = { s with pumps := ⟨set .i1, set .i2, set .i3, set .i4, set .i5, set .i6⟩ } ∧
    clampPosition n s = s.onScreen n (fun a => { a with
      position := min a.position (c.maxTravel n + max (c.maxTravel n / 20) 10) }) ∧
    (c.linkEnable = true →
      (s.link.state = .offline → commitLink s = setFlag .link (enterJoining s)) ∧
      (s.link.state = .joining → commitLink s = if s.link.baud = c.linkBaud then s
        else s.onLink fun l => { l with baud := c.linkBaud, assembly := none, interByte := none }) ∧
      (s.link.state = .online ∨ s.link.state = .quiet ∨ s.link.state = .lost → commitLink s = s)) ∧
    (c.linkEnable = false →
      (s.link.state = .offline → commitLink s = s) ∧
      (s.link.state = .joining ∨ s.link.state = .lost → commitLink s = enterOffline s) ∧
      (s.link.state = .online ∨ s.link.state = .quiet → commitLink s = enterOffline (enterLost s))) ∧
    enterOffline s = setFlag .link { s with link := { s.link with
      state := .offline, credits := 0, grant := none, period := none, requests := [], offersOwed := 0, wakesOwed := 0
      statusOwed := false, lossTimer := none, offerTimer := none, heartbeatTimer := none, statusTimer := none
      lostCause := false } } ∧
    enterLost s = setFlag .link { s with
      pumps := s.pumps.map fun q => { q with townMark := false, locks := { q.locks with townInhibit := false } }
      duty := { s.duty with
        drawdown := if s.duty.drawdownTimer = none then s.duty.drawdown else 0, drawdownTimer := none }
      link := { s.link with
        state := .lost, credits := 0, grant := none, period := none, requests := [], statusOwed := false
        wakesOwed := 0, heartbeatTimer := none, statusTimer := none, lossTimer := some 1000 } } ∧
    enterJoining s = s.onLink fun l => { l with
      state := .joining, baud := c.linkBaud, credits := 0, grant := none, requests := [], heartbeatTimer := none
      statusTimer := none, lossTimer := none, offersOwed := l.offersOwed + 1, offerTimer := some 500 })

/-- The end of a store write (R196): at its good end the image is the running set with a good checksum and the faults'
causes are absent, STORE-WRITE-FAIL and SETTINGS-FAULT returned where they were present; at a failure or the time-out the
image stands and STORE-WRITE-FAIL is raised, whether or not it was present, with FAILED or TIMED-OUT. The write is no more
in hand, the SETTINGS flag is set, and a port that waits takes DONE or STORE-FAIL. The order of the two returns is that of
assumption 14, and that a report is taken as that of the write in hand is the model's choice (assumption 41). -/
def Obligations.StoreWriteEnds : Prop :=
  ∀ s : State,
    let wait := fun (code : Byte) (u : State) => u.onPort fun p => { p with
      phase := if s.port.phase = .executing then .result [code] else p.phase }
    let returns : List Edge := (if s.store.writeFail then [⟨.storeWriteFail, 0, none⟩] else []) ++
      (if s.store.settingsFault then [⟨.settingsFault, 0, none⟩] else [])
    let good := setFlag .settings (s.onStore fun st => { st with
      image := st.running, checksumGood := true, writing := none, settingsFault := false, writeFail := false })
    let bad := setFlag .settings (s.onStore fun st => { st with writing := none, writeFail := true })
    (s.store.writing ≠ none →
      (∃ t, exec (.storeWriteReport true) s = .next t ∧ t = conclude (wait 0 (offerEdges returns good)) ∧
        t.store = good.store ∧
        t.port.phase = (if s.port.phase = .executing then .result [0] else s.port.phase) ∧
        t.port.flags.settings = true ∧ t.level = s.level ∧ t.balance = s.balance ∧ t.clock = s.clock) ∧
      (∃ t, exec (.storeWriteReport false) s = .next t ∧
        t = conclude (wait 13 (raise ⟨.storeWriteFail, 0⟩ .minor [0] bad)) ∧ t.store = bad.store ∧
        t.port.phase = (if s.port.phase = .executing then .result [13] else s.port.phase) ∧
        t.port.flags.settings = true ∧ t.level = s.level ∧ t.balance = s.balance ∧ t.clock = s.clock)) ∧
    (s.store.writing = some 0 →
      ∃ t, exec .storeTimeoutExpiry s = .next t ∧
        t = conclude (wait 13 (raise ⟨.storeWriteFail, 0⟩ .minor [1] bad)) ∧ t.store = bad.store ∧
        t.port.phase = (if s.port.phase = .executing then .result [13] else s.port.phase) ∧
        t.port.flags.settings = true ∧ t.level = s.level ∧ t.balance = s.balance ∧ t.clock = s.clock)

/-- Events that are not due (the model's choice, assumption 2): the expiry of a timer that is stopped or has time left, a
pulse with both motors off, an age-out that is not reached, a shelf that has time left or a record not shelved, and a store
report with no write in hand change nothing. -/
def Obligations.EventsNotDueChangeNothing : Prop :=
  ∀ (s : State) (f : FloatId) (w : Ix2) (p : Ix6) (l : SelectorLine) (x : PumpInput) (y : PowerLine) (r : RakeInput)
    (v : Six (BitVec 12)) (q : BitVec 12) (b : Bool) (i : Fin 48),
    (s.level.roundTimer ≠ some 0 →
      exec (.roundComplete v q) s = .next s ∧ exec (.periodEnd v q) s = .next s) ∧
    (s.level.rounds + 1 < 10 * s.level.periodSecs → exec (.periodEnd v q) s = .next s) ∧
    ((s.level.float f).timer ≠ some 0 → exec (.floatDebounceExpiry f) s = .next s) ∧
    ((s.balance.weirs.get w).separation ≠ some 0 → exec (.separationTimerExpiry w) s = .next s) ∧
    (((s.pump p).line l).timer ≠ some 0 → exec (.selectorDebounceExpiry p l) s = .next s) ∧
    ((∀ a rest, (s.pump p).history = a :: rest → ticksSince s.clock.uptime a < 360000) →
      exec (.startHistoryAgeOut p) s = .next s) ∧
    ((s.screen w).up = false → (s.screen w).down = false → exec (.pulse w) s = .next s) ∧
    ((s.pump p).headTimer ≠ some 0 → exec (.headBlockedDelayExpiry p) s = .next s) ∧
    (s.duty.drawdownTimer ≠ some 0 → exec .drawdownExpiry s = .next s) ∧
    ((s.pump p).runTicks < 100 → exec (.runSecondsTick p) s = .next s) ∧
    (((s.pump p).input x).timer ≠ some 0 → exec (.pumpInputDebounceExpiry p x) s = .next s) ∧
    ((s.pump p).startWindow ≠ some 0 → exec (.startWindowExpiry p) s = .next s) ∧
    ((s.pump p).minRun ≠ some 0 → exec (.minRunExpiry p) s = .next s) ∧
    ((s.pump p).stopWindow ≠ some 0 → exec (.stopWindowExpiry p) s = .next s) ∧
    ((s.pump p).runDown ≠ some 0 → exec (.runDownExpiry p) s = .next s) ∧
    ((s.power.line y).timer ≠ some 0 → exec (.powerLineDebounceExpiry y) s = .next s) ∧
    (s.power.stagger ≠ some 0 → exec .staggerTimerExpiry s = .next s) ∧
    (((s.screen w).input r).timer ≠ some 0 → exec (.rakeInputDebounceExpiry w r) s = .next s) ∧
    ((s.screen w).dwell ≠ some 0 →
      exec (.gripDwellExpiry w) s = .next s ∧ exec (.dischargeDwellExpiry w) s = .next s) ∧
    ((s.screen w).jamTimer ≠ some 0 → exec (.jamTimerExpiry w) s = .next s) ∧
    ((s.screen w).reverse ≠ some 0 → exec (.reverseTimerExpiry w) s = .next s) ∧
    ((∀ r, (s.table.slot i.val).record = some r → r.shelved = false ∨ r.shelf ≠ some 0) →
      exec (.shelfTimerExpiry i) s = .next s) ∧
    (s.port.window ≠ some 0 → exec .byteWindowExpiry s = .next s) ∧
    (s.port.resetTimer ≠ some 0 → exec .resetTimerExpiry s = .next s) ∧
    (s.link.interByte ≠ some 0 → exec .interByteTimerExpiry s = .next s) ∧
    (s.link.offerTimer ≠ some 0 → exec .offerTimerExpiry s = .next s) ∧
    (s.link.heartbeatTimer ≠ some 0 → exec .heartbeatTimerExpiry s = .next s) ∧
    (s.link.statusTimer ≠ some 0 → exec .statusTimerExpiry s = .next s) ∧
    (s.link.lossTimer ≠ some 0 → exec .lossTimerExpiry s = .next s) ∧
    (s.link.sending = none → exec .frameSent s = .next s) ∧
    (s.store.writing = none → exec (.storeWriteReport b) s = .next s) ∧
    (s.store.writing ≠ some 0 → exec .storeTimeoutExpiry s = .next s)
end

