-- ==== Sys2Proof/Laws/State.lean ====
section
/-!
SUPPORT. One lemma for each field of State under each update of one block, so that no proof unfolds a record update; and
the reads of one pump or one screen under them.
-/

namespace Sys2Proof.Machine

variable (s : State)

@[simp] theorem State.onClock_clock (f : Clock → Clock) : (s.onClock f).clock = f s.clock := rfl
@[simp] theorem State.onClock_level (f : Clock → Clock) : (s.onClock f).level = s.level := rfl
@[simp] theorem State.onClock_balance (f : Clock → Clock) : (s.onClock f).balance = s.balance := rfl
@[simp] theorem State.onClock_pumps (f : Clock → Clock) : (s.onClock f).pumps = s.pumps := rfl
@[simp] theorem State.onClock_duty (f : Clock → Clock) : (s.onClock f).duty = s.duty := rfl
@[simp] theorem State.onClock_power (f : Clock → Clock) : (s.onClock f).power = s.power := rfl
@[simp] theorem State.onClock_screens (f : Clock → Clock) : (s.onClock f).screens = s.screens := rfl
@[simp] theorem State.onClock_table (f : Clock → Clock) : (s.onClock f).table = s.table := rfl
@[simp] theorem State.onClock_ann (f : Clock → Clock) : (s.onClock f).ann = s.ann := rfl
@[simp] theorem State.onClock_port (f : Clock → Clock) : (s.onClock f).port = s.port := rfl
@[simp] theorem State.onClock_link (f : Clock → Clock) : (s.onClock f).link = s.link := rfl
@[simp] theorem State.onClock_store (f : Clock → Clock) : (s.onClock f).store = s.store := rfl
@[simp] theorem State.onClock_shown (f : Clock → Clock) : (s.onClock f).shown = s.shown := rfl
@[simp] theorem State.onClock_pending (f : Clock → Clock) : (s.onClock f).pending = s.pending := rfl
@[simp] theorem State.onClock_pump (f : Clock → Clock) (q : Ix6) : (s.onClock f).pump q = s.pump q := rfl
@[simp] theorem State.onClock_screen (f : Clock → Clock) (m : Ix2) : (s.onClock f).screen m = s.screen m := rfl
@[simp] theorem State.onClock_running (f : Clock → Clock) : (s.onClock f).running = s.running := rfl

@[simp] theorem State.onLevel_clock (f : Level → Level) : (s.onLevel f).clock = s.clock := rfl
@[simp] theorem State.onLevel_level (f : Level → Level) : (s.onLevel f).level = f s.level := rfl
@[simp] theorem State.onLevel_balance (f : Level → Level) : (s.onLevel f).balance = s.balance := rfl
@[simp] theorem State.onLevel_pumps (f : Level → Level) : (s.onLevel f).pumps = s.pumps := rfl
@[simp] theorem State.onLevel_duty (f : Level → Level) : (s.onLevel f).duty = s.duty := rfl
@[simp] theorem State.onLevel_power (f : Level → Level) : (s.onLevel f).power = s.power := rfl
@[simp] theorem State.onLevel_screens (f : Level → Level) : (s.onLevel f).screens = s.screens := rfl
@[simp] theorem State.onLevel_table (f : Level → Level) : (s.onLevel f).table = s.table := rfl
@[simp] theorem State.onLevel_ann (f : Level → Level) : (s.onLevel f).ann = s.ann := rfl
@[simp] theorem State.onLevel_port (f : Level → Level) : (s.onLevel f).port = s.port := rfl
@[simp] theorem State.onLevel_link (f : Level → Level) : (s.onLevel f).link = s.link := rfl
@[simp] theorem State.onLevel_store (f : Level → Level) : (s.onLevel f).store = s.store := rfl
@[simp] theorem State.onLevel_shown (f : Level → Level) : (s.onLevel f).shown = s.shown := rfl
@[simp] theorem State.onLevel_pending (f : Level → Level) : (s.onLevel f).pending = s.pending := rfl
@[simp] theorem State.onLevel_pump (f : Level → Level) (q : Ix6) : (s.onLevel f).pump q = s.pump q := rfl
@[simp] theorem State.onLevel_screen (f : Level → Level) (m : Ix2) : (s.onLevel f).screen m = s.screen m := rfl
@[simp] theorem State.onLevel_running (f : Level → Level) : (s.onLevel f).running = s.running := rfl

@[simp] theorem State.onBalance_clock (f : Balance → Balance) : (s.onBalance f).clock = s.clock := rfl
@[simp] theorem State.onBalance_level (f : Balance → Balance) : (s.onBalance f).level = s.level := rfl
@[simp] theorem State.onBalance_balance (f : Balance → Balance) : (s.onBalance f).balance = f s.balance := rfl
@[simp] theorem State.onBalance_pumps (f : Balance → Balance) : (s.onBalance f).pumps = s.pumps := rfl
@[simp] theorem State.onBalance_duty (f : Balance → Balance) : (s.onBalance f).duty = s.duty := rfl
@[simp] theorem State.onBalance_power (f : Balance → Balance) : (s.onBalance f).power = s.power := rfl
@[simp] theorem State.onBalance_screens (f : Balance → Balance) : (s.onBalance f).screens = s.screens := rfl
@[simp] theorem State.onBalance_table (f : Balance → Balance) : (s.onBalance f).table = s.table := rfl
@[simp] theorem State.onBalance_ann (f : Balance → Balance) : (s.onBalance f).ann = s.ann := rfl
@[simp] theorem State.onBalance_port (f : Balance → Balance) : (s.onBalance f).port = s.port := rfl
@[simp] theorem State.onBalance_link (f : Balance → Balance) : (s.onBalance f).link = s.link := rfl
@[simp] theorem State.onBalance_store (f : Balance → Balance) : (s.onBalance f).store = s.store := rfl
@[simp] theorem State.onBalance_shown (f : Balance → Balance) : (s.onBalance f).shown = s.shown := rfl
@[simp] theorem State.onBalance_pending (f : Balance → Balance) : (s.onBalance f).pending = s.pending := rfl
@[simp] theorem State.onBalance_pump (f : Balance → Balance) (q : Ix6) : (s.onBalance f).pump q = s.pump q := rfl
@[simp] theorem State.onBalance_screen (f : Balance → Balance) (m : Ix2) : (s.onBalance f).screen m = s.screen m := rfl
@[simp] theorem State.onBalance_running (f : Balance → Balance) : (s.onBalance f).running = s.running := rfl

@[simp] theorem State.onPump_clock (p : Ix6) (f : Pump → Pump) : (s.onPump p f).clock = s.clock := rfl
@[simp] theorem State.onPump_level (p : Ix6) (f : Pump → Pump) : (s.onPump p f).level = s.level := rfl
@[simp] theorem State.onPump_balance (p : Ix6) (f : Pump → Pump) : (s.onPump p f).balance = s.balance := rfl
@[simp] theorem State.onPump_pumps (p : Ix6) (f : Pump → Pump) : (s.onPump p f).pumps = s.pumps.modify p f := rfl
@[simp] theorem State.onPump_duty (p : Ix6) (f : Pump → Pump) : (s.onPump p f).duty = s.duty := rfl
@[simp] theorem State.onPump_power (p : Ix6) (f : Pump → Pump) : (s.onPump p f).power = s.power := rfl
@[simp] theorem State.onPump_screens (p : Ix6) (f : Pump → Pump) : (s.onPump p f).screens = s.screens := rfl
@[simp] theorem State.onPump_table (p : Ix6) (f : Pump → Pump) : (s.onPump p f).table = s.table := rfl
@[simp] theorem State.onPump_ann (p : Ix6) (f : Pump → Pump) : (s.onPump p f).ann = s.ann := rfl
@[simp] theorem State.onPump_port (p : Ix6) (f : Pump → Pump) : (s.onPump p f).port = s.port := rfl
@[simp] theorem State.onPump_link (p : Ix6) (f : Pump → Pump) : (s.onPump p f).link = s.link := rfl
@[simp] theorem State.onPump_store (p : Ix6) (f : Pump → Pump) : (s.onPump p f).store = s.store := rfl
@[simp] theorem State.onPump_shown (p : Ix6) (f : Pump → Pump) : (s.onPump p f).shown = s.shown := rfl
@[simp] theorem State.onPump_pending (p : Ix6) (f : Pump → Pump) : (s.onPump p f).pending = s.pending := rfl
@[simp] theorem State.onPump_screen (p : Ix6) (f : Pump → Pump) (m : Ix2) : (s.onPump p f).screen m = s.screen m := rfl
@[simp] theorem State.onPump_running (p : Ix6) (f : Pump → Pump) : (s.onPump p f).running = s.running := rfl

@[simp] theorem State.onDuty_clock (f : Duty → Duty) : (s.onDuty f).clock = s.clock := rfl
@[simp] theorem State.onDuty_level (f : Duty → Duty) : (s.onDuty f).level = s.level := rfl
@[simp] theorem State.onDuty_balance (f : Duty → Duty) : (s.onDuty f).balance = s.balance := rfl
@[simp] theorem State.onDuty_pumps (f : Duty → Duty) : (s.onDuty f).pumps = s.pumps := rfl
@[simp] theorem State.onDuty_duty (f : Duty → Duty) : (s.onDuty f).duty = f s.duty := rfl
@[simp] theorem State.onDuty_power (f : Duty → Duty) : (s.onDuty f).power = s.power := rfl
@[simp] theorem State.onDuty_screens (f : Duty → Duty) : (s.onDuty f).screens = s.screens := rfl
@[simp] theorem State.onDuty_table (f : Duty → Duty) : (s.onDuty f).table = s.table := rfl
@[simp] theorem State.onDuty_ann (f : Duty → Duty) : (s.onDuty f).ann = s.ann := rfl
@[simp] theorem State.onDuty_port (f : Duty → Duty) : (s.onDuty f).port = s.port := rfl
@[simp] theorem State.onDuty_link (f : Duty → Duty) : (s.onDuty f).link = s.link := rfl
@[simp] theorem State.onDuty_store (f : Duty → Duty) : (s.onDuty f).store = s.store := rfl
@[simp] theorem State.onDuty_shown (f : Duty → Duty) : (s.onDuty f).shown = s.shown := rfl
@[simp] theorem State.onDuty_pending (f : Duty → Duty) : (s.onDuty f).pending = s.pending := rfl
@[simp] theorem State.onDuty_pump (f : Duty → Duty) (q : Ix6) : (s.onDuty f).pump q = s.pump q := rfl
@[simp] theorem State.onDuty_screen (f : Duty → Duty) (m : Ix2) : (s.onDuty f).screen m = s.screen m := rfl
@[simp] theorem State.onDuty_running (f : Duty → Duty) : (s.onDuty f).running = s.running := rfl

@[simp] theorem State.onPower_clock (f : Power → Power) : (s.onPower f).clock = s.clock := rfl
@[simp] theorem State.onPower_level (f : Power → Power) : (s.onPower f).level = s.level := rfl
@[simp] theorem State.onPower_balance (f : Power → Power) : (s.onPower f).balance = s.balance := rfl
@[simp] theorem State.onPower_pumps (f : Power → Power) : (s.onPower f).pumps = s.pumps := rfl
@[simp] theorem State.onPower_duty (f : Power → Power) : (s.onPower f).duty = s.duty := rfl
@[simp] theorem State.onPower_power (f : Power → Power) : (s.onPower f).power = f s.power := rfl
@[simp] theorem State.onPower_screens (f : Power → Power) : (s.onPower f).screens = s.screens := rfl
@[simp] theorem State.onPower_table (f : Power → Power) : (s.onPower f).table = s.table := rfl
@[simp] theorem State.onPower_ann (f : Power → Power) : (s.onPower f).ann = s.ann := rfl
@[simp] theorem State.onPower_port (f : Power → Power) : (s.onPower f).port = s.port := rfl
@[simp] theorem State.onPower_link (f : Power → Power) : (s.onPower f).link = s.link := rfl
@[simp] theorem State.onPower_store (f : Power → Power) : (s.onPower f).store = s.store := rfl
@[simp] theorem State.onPower_shown (f : Power → Power) : (s.onPower f).shown = s.shown := rfl
@[simp] theorem State.onPower_pending (f : Power → Power) : (s.onPower f).pending = s.pending := rfl
@[simp] theorem State.onPower_pump (f : Power → Power) (q : Ix6) : (s.onPower f).pump q = s.pump q := rfl
@[simp] theorem State.onPower_screen (f : Power → Power) (m : Ix2) : (s.onPower f).screen m = s.screen m := rfl
@[simp] theorem State.onPower_running (f : Power → Power) : (s.onPower f).running = s.running := rfl

@[simp] theorem State.onScreen_clock (n : Ix2) (f : Screen → Screen) : (s.onScreen n f).clock = s.clock := rfl
@[simp] theorem State.onScreen_level (n : Ix2) (f : Screen → Screen) : (s.onScreen n f).level = s.level := rfl
@[simp] theorem State.onScreen_balance (n : Ix2) (f : Screen → Screen) : (s.onScreen n f).balance = s.balance := rfl
@[simp] theorem State.onScreen_pumps (n : Ix2) (f : Screen → Screen) : (s.onScreen n f).pumps = s.pumps := rfl
@[simp] theorem State.onScreen_duty (n : Ix2) (f : Screen → Screen) : (s.onScreen n f).duty = s.duty := rfl
@[simp] theorem State.onScreen_power (n : Ix2) (f : Screen → Screen) : (s.onScreen n f).power = s.power := rfl
@[simp] theorem State.onScreen_screens (n : Ix2) (f : Screen → Screen) : (s.onScreen n f).screens = s.screens.modify n f := rfl
@[simp] theorem State.onScreen_table (n : Ix2) (f : Screen → Screen) : (s.onScreen n f).table = s.table := rfl
@[simp] theorem State.onScreen_ann (n : Ix2) (f : Screen → Screen) : (s.onScreen n f).ann = s.ann := rfl
@[simp] theorem State.onScreen_port (n : Ix2) (f : Screen → Screen) : (s.onScreen n f).port = s.port := rfl
@[simp] theorem State.onScreen_link (n : Ix2) (f : Screen → Screen) : (s.onScreen n f).link = s.link := rfl
@[simp] theorem State.onScreen_store (n : Ix2) (f : Screen → Screen) : (s.onScreen n f).store = s.store := rfl
@[simp] theorem State.onScreen_shown (n : Ix2) (f : Screen → Screen) : (s.onScreen n f).shown = s.shown := rfl
@[simp] theorem State.onScreen_pending (n : Ix2) (f : Screen → Screen) : (s.onScreen n f).pending = s.pending := rfl
@[simp] theorem State.onScreen_pump (n : Ix2) (f : Screen → Screen) (q : Ix6) : (s.onScreen n f).pump q = s.pump q := rfl
@[simp] theorem State.onScreen_running (n : Ix2) (f : Screen → Screen) : (s.onScreen n f).running = s.running := rfl

@[simp] theorem State.onTable_clock (f : Table → Table) : (s.onTable f).clock = s.clock := rfl
@[simp] theorem State.onTable_level (f : Table → Table) : (s.onTable f).level = s.level := rfl
@[simp] theorem State.onTable_balance (f : Table → Table) : (s.onTable f).balance = s.balance := rfl
@[simp] theorem State.onTable_pumps (f : Table → Table) : (s.onTable f).pumps = s.pumps := rfl
@[simp] theorem State.onTable_duty (f : Table → Table) : (s.onTable f).duty = s.duty := rfl
@[simp] theorem State.onTable_power (f : Table → Table) : (s.onTable f).power = s.power := rfl
@[simp] theorem State.onTable_screens (f : Table → Table) : (s.onTable f).screens = s.screens := rfl
@[simp] theorem State.onTable_table (f : Table → Table) : (s.onTable f).table = f s.table := rfl
@[simp] theorem State.onTable_ann (f : Table → Table) : (s.onTable f).ann = s.ann := rfl
@[simp] theorem State.onTable_port (f : Table → Table) : (s.onTable f).port = s.port := rfl
@[simp] theorem State.onTable_link (f : Table → Table) : (s.onTable f).link = s.link := rfl
@[simp] theorem State.onTable_store (f : Table → Table) : (s.onTable f).store = s.store := rfl
@[simp] theorem State.onTable_shown (f : Table → Table) : (s.onTable f).shown = s.shown := rfl
@[simp] theorem State.onTable_pending (f : Table → Table) : (s.onTable f).pending = s.pending := rfl
@[simp] theorem State.onTable_pump (f : Table → Table) (q : Ix6) : (s.onTable f).pump q = s.pump q := rfl
@[simp] theorem State.onTable_screen (f : Table → Table) (m : Ix2) : (s.onTable f).screen m = s.screen m := rfl
@[simp] theorem State.onTable_running (f : Table → Table) : (s.onTable f).running = s.running := rfl

@[simp] theorem State.onAnn_clock (f : Annunciator → Annunciator) : (s.onAnn f).clock = s.clock := rfl
@[simp] theorem State.onAnn_level (f : Annunciator → Annunciator) : (s.onAnn f).level = s.level := rfl
@[simp] theorem State.onAnn_balance (f : Annunciator → Annunciator) : (s.onAnn f).balance = s.balance := rfl
@[simp] theorem State.onAnn_pumps (f : Annunciator → Annunciator) : (s.onAnn f).pumps = s.pumps := rfl
@[simp] theorem State.onAnn_duty (f : Annunciator → Annunciator) : (s.onAnn f).duty = s.duty := rfl
@[simp] theorem State.onAnn_power (f : Annunciator → Annunciator) : (s.onAnn f).power = s.power := rfl
@[simp] theorem State.onAnn_screens (f : Annunciator → Annunciator) : (s.onAnn f).screens = s.screens := rfl
@[simp] theorem State.onAnn_table (f : Annunciator → Annunciator) : (s.onAnn f).table = s.table := rfl
@[simp] theorem State.onAnn_ann (f : Annunciator → Annunciator) : (s.onAnn f).ann = f s.ann := rfl
@[simp] theorem State.onAnn_port (f : Annunciator → Annunciator) : (s.onAnn f).port = s.port := rfl
@[simp] theorem State.onAnn_link (f : Annunciator → Annunciator) : (s.onAnn f).link = s.link := rfl
@[simp] theorem State.onAnn_store (f : Annunciator → Annunciator) : (s.onAnn f).store = s.store := rfl
@[simp] theorem State.onAnn_shown (f : Annunciator → Annunciator) : (s.onAnn f).shown = s.shown := rfl
@[simp] theorem State.onAnn_pending (f : Annunciator → Annunciator) : (s.onAnn f).pending = s.pending := rfl
@[simp] theorem State.onAnn_pump (f : Annunciator → Annunciator) (q : Ix6) : (s.onAnn f).pump q = s.pump q := rfl
@[simp] theorem State.onAnn_screen (f : Annunciator → Annunciator) (m : Ix2) : (s.onAnn f).screen m = s.screen m := rfl
@[simp] theorem State.onAnn_running (f : Annunciator → Annunciator) : (s.onAnn f).running = s.running := rfl

@[simp] theorem State.onPort_clock (f : Port → Port) : (s.onPort f).clock = s.clock := rfl
@[simp] theorem State.onPort_level (f : Port → Port) : (s.onPort f).level = s.level := rfl
@[simp] theorem State.onPort_balance (f : Port → Port) : (s.onPort f).balance = s.balance := rfl
@[simp] theorem State.onPort_pumps (f : Port → Port) : (s.onPort f).pumps = s.pumps := rfl
@[simp] theorem State.onPort_duty (f : Port → Port) : (s.onPort f).duty = s.duty := rfl
@[simp] theorem State.onPort_power (f : Port → Port) : (s.onPort f).power = s.power := rfl
@[simp] theorem State.onPort_screens (f : Port → Port) : (s.onPort f).screens = s.screens := rfl
@[simp] theorem State.onPort_table (f : Port → Port) : (s.onPort f).table = s.table := rfl
@[simp] theorem State.onPort_ann (f : Port → Port) : (s.onPort f).ann = s.ann := rfl
@[simp] theorem State.onPort_port (f : Port → Port) : (s.onPort f).port = f s.port := rfl
@[simp] theorem State.onPort_link (f : Port → Port) : (s.onPort f).link = s.link := rfl
@[simp] theorem State.onPort_store (f : Port → Port) : (s.onPort f).store = s.store := rfl
@[simp] theorem State.onPort_shown (f : Port → Port) : (s.onPort f).shown = s.shown := rfl
@[simp] theorem State.onPort_pending (f : Port → Port) : (s.onPort f).pending = s.pending := rfl
@[simp] theorem State.onPort_pump (f : Port → Port) (q : Ix6) : (s.onPort f).pump q = s.pump q := rfl
@[simp] theorem State.onPort_screen (f : Port → Port) (m : Ix2) : (s.onPort f).screen m = s.screen m := rfl
@[simp] theorem State.onPort_running (f : Port → Port) : (s.onPort f).running = s.running := rfl

@[simp] theorem State.onLink_clock (f : Link → Link) : (s.onLink f).clock = s.clock := rfl
@[simp] theorem State.onLink_level (f : Link → Link) : (s.onLink f).level = s.level := rfl
@[simp] theorem State.onLink_balance (f : Link → Link) : (s.onLink f).balance = s.balance := rfl
@[simp] theorem State.onLink_pumps (f : Link → Link) : (s.onLink f).pumps = s.pumps := rfl
@[simp] theorem State.onLink_duty (f : Link → Link) : (s.onLink f).duty = s.duty := rfl
@[simp] theorem State.onLink_power (f : Link → Link) : (s.onLink f).power = s.power := rfl
@[simp] theorem State.onLink_screens (f : Link → Link) : (s.onLink f).screens = s.screens := rfl
@[simp] theorem State.onLink_table (f : Link → Link) : (s.onLink f).table = s.table := rfl
@[simp] theorem State.onLink_ann (f : Link → Link) : (s.onLink f).ann = s.ann := rfl
@[simp] theorem State.onLink_port (f : Link → Link) : (s.onLink f).port = s.port := rfl
@[simp] theorem State.onLink_link (f : Link → Link) : (s.onLink f).link = f s.link := rfl
@[simp] theorem State.onLink_store (f : Link → Link) : (s.onLink f).store = s.store := rfl
@[simp] theorem State.onLink_shown (f : Link → Link) : (s.onLink f).shown = s.shown := rfl
@[simp] theorem State.onLink_pending (f : Link → Link) : (s.onLink f).pending = s.pending := rfl
@[simp] theorem State.onLink_pump (f : Link → Link) (q : Ix6) : (s.onLink f).pump q = s.pump q := rfl
@[simp] theorem State.onLink_screen (f : Link → Link) (m : Ix2) : (s.onLink f).screen m = s.screen m := rfl
@[simp] theorem State.onLink_running (f : Link → Link) : (s.onLink f).running = s.running := rfl

@[simp] theorem State.onStore_clock (f : Store → Store) : (s.onStore f).clock = s.clock := rfl
@[simp] theorem State.onStore_level (f : Store → Store) : (s.onStore f).level = s.level := rfl
@[simp] theorem State.onStore_balance (f : Store → Store) : (s.onStore f).balance = s.balance := rfl
@[simp] theorem State.onStore_pumps (f : Store → Store) : (s.onStore f).pumps = s.pumps := rfl
@[simp] theorem State.onStore_duty (f : Store → Store) : (s.onStore f).duty = s.duty := rfl
@[simp] theorem State.onStore_power (f : Store → Store) : (s.onStore f).power = s.power := rfl
@[simp] theorem State.onStore_screens (f : Store → Store) : (s.onStore f).screens = s.screens := rfl
@[simp] theorem State.onStore_table (f : Store → Store) : (s.onStore f).table = s.table := rfl
@[simp] theorem State.onStore_ann (f : Store → Store) : (s.onStore f).ann = s.ann := rfl
@[simp] theorem State.onStore_port (f : Store → Store) : (s.onStore f).port = s.port := rfl
@[simp] theorem State.onStore_link (f : Store → Store) : (s.onStore f).link = s.link := rfl
@[simp] theorem State.onStore_store (f : Store → Store) : (s.onStore f).store = f s.store := rfl
@[simp] theorem State.onStore_shown (f : Store → Store) : (s.onStore f).shown = s.shown := rfl
@[simp] theorem State.onStore_pending (f : Store → Store) : (s.onStore f).pending = s.pending := rfl
@[simp] theorem State.onStore_pump (f : Store → Store) (q : Ix6) : (s.onStore f).pump q = s.pump q := rfl
@[simp] theorem State.onStore_screen (f : Store → Store) (m : Ix2) : (s.onStore f).screen m = s.screen m := rfl

/-! Reads of one of six and of one of two -/

theorem Six.get_modify {α : Type} (v : Six α) (i j : Ix6) (f : α → α) :
    (v.modify i f).get j = if j = i then f (v.get j) else v.get j := by
  cases i <;> cases j <;> rfl

theorem Two.get_modify {α : Type} (v : Two α) (i j : Ix2) (f : α → α) :
    (v.modify i f).get j = if j = i then f (v.get j) else v.get j := by
  cases i <;> cases j <;> rfl

@[simp] theorem Six.get_gen {α : Type} (f : Ix6 → α) (i : Ix6) : (Six.gen f).get i = f i := by cases i <;> rfl

@[simp] theorem Six.get_map {α β : Type} (f : α → β) (v : Six α) (i : Ix6) : (v.map f).get i = f (v.get i) := by
  cases i <;> rfl

@[simp] theorem Two.get_map {α β : Type} (f : α → β) (v : Two α) (i : Ix2) : (v.map f).get i = f (v.get i) := by
  cases i <;> rfl

@[simp] theorem Six.get_const {α : Type} (x : α) (i : Ix6) : (Six.const x).get i = x := by cases i <;> rfl

@[simp] theorem Two.get_const {α : Type} (x : α) (i : Ix2) : (Two.const x).get i = x := by cases i <;> rfl

/-- A pump after an update of one pump. -/
@[simp] theorem State.onPump_pump (p q : Ix6) (f : Pump → Pump) :
    (s.onPump p f).pump q = if q = p then f (s.pump q) else s.pump q := Six.get_modify _ _ _ _

/-- A screen after an update of one screen. -/
@[simp] theorem State.onScreen_screen (n m : Ix2) (f : Screen → Screen) :
    (s.onScreen n f).screen m = if m = n then f (s.screen m) else s.screen m := Two.get_modify _ _ _ _

@[simp] theorem State.onStore_running (f : Store → Store) : (s.onStore f).running = (f s.store).running := rfl

end Sys2Proof.Machine
end

