-- ==== Sys2Proof/Laws/Edges.lean ====
section
/-!
SUPPORT. What an edge can do: one frame lemma for each operation of the Condition Table, all of them instances of
EdgeFrame.
-/

namespace Sys2Proof.Machine

/-! Flags -/

theorem Attention.within_refl (a : Attention) : a.within a := fun _ h => h

theorem Attention.within_trans {a b c : Attention} (h : a.within b) (k : b.within c) : a.within c :=
  fun f x => k f (h f x)

theorem Attention.within_mark (a : Attention) (f : Flag) : a.within (a.mark f) := by
  intro g h; cases f <;> cases g <;> simp_all [Attention.has, Attention.mark]

@[simp] theorem Attention.has_mark (a : Attention) (f : Flag) : (a.mark f).has f = true := by
  cases f <;> rfl

/-! The frame relations compose -/

theorem CommonFrame.refl (s : State) : CommonFrame s s :=
  ⟨rfl, rfl, rfl, rfl, rfl, rfl, rfl, rfl, Attention.within_refl _, id, rfl, .inl rfl, fun _ => rfl, fun h => absurd rfl h, rfl,
    by omega⟩

theorem CommonFrame.trans {s t u : State} (h : CommonFrame s t) (k : CommonFrame t u) : CommonFrame s u where
  clock := k.clock.trans h.clock
  level := k.level.trans h.level
  balance := k.balance.trans h.balance
  store := k.store.trans h.store
  shown := k.shown.trans h.shown
  pending := k.pending.trans h.pending
  ann := by rw [k.ann, h.ann]
  port := by rw [k.port, h.port]
  flags := Attention.within_trans h.flags k.flags
  attn := fun a => k.attn (h.attn a)
  link := by rw [k.link, h.link]
  wakes := by
    rcases k.wakes with a | ⟨a, b⟩ <;> rcases h.wakes with c | ⟨c, d⟩ <;> simp_all
  still := fun e => by
    rcases h.wakes with c | ⟨c, d⟩
    · exact (k.still (e.trans c.symm)).trans (h.still c)
    · rcases k.wakes with a | ⟨a, b⟩ <;> simp_all
  woke := fun e => by
    rcases h.wakes with c | ⟨c, d⟩
    · rw [← h.still c]
      exact k.woke (c ▸ e)
    · have q : u.link.state = t.link.state := by
        rcases k.wakes with a | ⟨a, b⟩
        · exact a
        · rw [d] at a; cases a
      rw [k.still q]
      exact h.woke (by rw [c, d]; decide)
  slots := k.slots.trans h.slots
  waiting := by have := h.waiting; have := k.waiting; omega

theorem EdgeFrame.refl (s : State) : EdgeFrame s s := ⟨.refl s, rfl, rfl, rfl, rfl⟩

theorem EdgeFrame.trans {s t u : State} (h : EdgeFrame s t) (k : EdgeFrame t u) : EdgeFrame s u :=
  ⟨h.toCommonFrame.trans k.toCommonFrame, k.pumps.trans h.pumps, k.duty.trans h.duty, k.power.trans h.power,
    k.screens.trans h.screens⟩

theorem EdgeFrame.running {s t : State} (h : EdgeFrame s t) : t.running = s.running := by
  unfold State.running; rw [h.store]

theorem EdgeFrame.pump {s t : State} (h : EdgeFrame s t) (p : Ix6) : t.pump p = s.pump p := by
  unfold State.pump; rw [h.pumps]

theorem EdgeFrame.screen {s t : State} (h : EdgeFrame s t) (n : Ix2) : t.screen n = s.screen n := by
  unfold State.screen; rw [h.screens]

/-! The primitive changes -/

theorem formAttn_ok (p : Port) : AttnOk p.formAttn := rfl

/-- A change of the table that keeps the number of slots and does not pass the waiting list's size. -/
theorem onTable_frame (f : Table → Table) (s : State) (hs : (f s.table).slots.length = s.table.slots.length)
    (hw : (f s.table).waiting.length ≤ max 16 s.table.waiting.length) : EdgeFrame s (s.onTable f) where
  clock := rfl
  level := rfl
  balance := rfl
  store := rfl
  shown := rfl
  pending := rfl
  ann := rfl
  port := rfl
  flags := Attention.within_refl _
  attn := id
  link := rfl
  wakes := .inl rfl
  still := fun _ => rfl
  woke := fun h => absurd rfl h
  slots := hs
  waiting := hw
  pumps := rfl
  duty := rfl
  power := rfl
  screens := rfl

/-- Only the silence of the local outputs changes. -/
theorem onAnn_silence_frame (b : Bool) (s : State) : EdgeFrame s (s.onAnn fun a => { a with silence := b }) where
  clock := rfl
  level := rfl
  balance := rfl
  store := rfl
  shown := rfl
  pending := rfl
  ann := rfl
  port := rfl
  flags := Attention.within_refl _
  attn := id
  link := rfl
  wakes := .inl rfl
  still := fun _ => rfl
  woke := fun h => absurd rfl h
  slots := rfl
  waiting := by simp only [State.onAnn_table]; omega
  pumps := rfl
  duty := rfl
  power := rfl
  screens := rfl

/-- Setting a flag (R167, R169). -/
theorem setFlag_frame (f : Flag) (s : State) : EdgeFrame s (setFlag f s) where
  clock := rfl
  level := rfl
  balance := rfl
  store := rfl
  shown := rfl
  pending := rfl
  ann := rfl
  port := rfl
  flags := Attention.within_mark _ _
  attn := fun _ => rfl
  link := rfl
  wakes := .inl rfl
  still := fun _ => rfl
  woke := fun h => absurd rfl h
  slots := rfl
  waiting := by simp only [setFlag, State.onPort_table]; omega
  pumps := rfl
  duty := rfl
  power := rfl
  screens := rfl

/-- A set flag is set. -/
theorem setFlag_has (f : Flag) (s : State) : (setFlag f s).port.flags.has f = true := Attention.has_mark _ _

/-- A wake changes the link only, and only from QUIET (R187). -/
theorem wakeLink_frame (b : Bool) (s : State) : EdgeFrame s (wakeLink b s) := by
  unfold wakeLink
  split
  · rename_i h
    refine EdgeFrame.trans (t := State.onLink _ s) ?_ (setFlag_frame _ _)
    exact
      { clock := rfl, level := rfl, balance := rfl, store := rfl, shown := rfl, pending := rfl, ann := rfl, port := rfl
        flags := Attention.within_refl _, attn := id, link := rfl, wakes := .inr ⟨h, rfl⟩
        still := fun e => by rw [h] at e; cases e
        woke := fun _ => ⟨rfl, rfl⟩, slots := rfl
        waiting := by simp only [State.onLink_table]; omega
        pumps := rfl, duty := rfl, power := rfl, screens := rfl }
  · exact .refl s

theorem enteredRaised_frame (r : Record) (s : State) : EdgeFrame s (enteredRaised r s) := by
  unfold enteredRaised
  dsimp only
  split <;> split <;>
    first
    | exact (onAnn_silence_frame false s).trans (wakeLink_frame true _)
    | exact wakeLink_frame true _
    | exact onAnn_silence_frame false s
    | exact .refl s

/-! Records -/

theorem changeRecord_frame (i : Nat) (f : Record → Record) (s : State) : EdgeFrame s (changeRecord i f s) := by
  unfold changeRecord
  split
  · exact .refl s
  · exact (onTable_frame _ s (by simp) (Nat.le_max_right _ _)).trans (setFlag_frame _ _)

theorem seat_frame (i : Nat) (k : Key) (sev : Severity) (x : List Byte) (first : Stamp) (s : State) :
    EdgeFrame s (seat i k sev x first s) := by
  unfold seat
  exact ((onTable_frame _ s (by simp) (Nat.le_max_right _ _)).trans (setFlag_frame _ _)).trans (enteredRaised_frame _ _)

theorem raiseSeated_frame (i : Nat) (sev : Severity) (x : List Byte) (s : State) :
    EdgeFrame s (raiseSeated i sev x s) := by
  unfold raiseSeated
  split
  · exact .refl s
  · dsimp only
    split
    · exact (changeRecord_frame _ _ s).trans (enteredRaised_frame _ _)
    · exact changeRecord_frame _ _ s

theorem raiseSaturated_frame (s : State) : EdgeFrame s (raiseSaturated s) := by
  unfold raiseSaturated
  dsimp only
  split
  · exact raiseSeated_frame _ _ _ s
  · exact seat_frame _ _ _ _ _ s

theorem countSuppression_frame (sev : Severity) (s : State) : EdgeFrame s (countSuppression sev s) := by
  unfold countSuppression
  dsimp only
  have h : EdgeFrame s (s.onTable fun t => { t with suppressed := s.table.suppressed.add sev, saturated := true }) :=
    onTable_frame _ s rfl (Nat.le_max_right _ _)
  split
  · split
    · exact h
    · exact h.trans (changeRecord_frame _ _ _)
  · exact h.trans (raiseSaturated_frame _)

/-! The waiting list -/

theorem placeWaiting_length (w : Waiting) (l : List Waiting) : (placeWaiting w l).length = l.length + 1 := by
  unfold placeWaiting
  have h := List.takeWhile_append_dropWhile (p := fun e : Waiting => e.severity.atLeast w.severity) (l := l)
  have := congrArg List.length h
  simp only [List.length_append, List.length_cons] at *
  omega

/-- Enlisting never passes sixteen entries (R133). -/
theorem enlist_length (w : Waiting) (l : List Waiting) : (enlist w l).length ≤ max 16 l.length := by
  unfold enlist
  split
  · rw [placeWaiting_length]; omega
  · split
    · split
      · rw [placeWaiting_length, List.length_dropLast]; omega
      · omega
    · omega

/-- The waiting list changes to one not past its size. -/
theorem setWaiting_frame (l : List Waiting) (s : State) (h : l.length ≤ max 16 s.table.waiting.length) :
    EdgeFrame s (setWaiting l s) := by
  unfold setWaiting
  split
  · exact .refl s
  · exact (onTable_frame _ s rfl h).trans (setFlag_frame _ _)

theorem countRaise_frame (s : State) : EdgeFrame s (countRaise s) :=
  (onTable_frame _ s rfl (Nat.le_max_right _ _)).trans (setFlag_frame _ _)

theorem serveWaiting_frame (n : Nat) (s : State) : EdgeFrame s (serveWaiting n s) := by
  induction n generalizing s with
  | zero => exact .refl s
  | succ n ih =>
    unfold serveWaiting
    split
    · rename_i w rest i hw hp
      exact ((setWaiting_frame rest s (by rw [hw]; simp only [List.length_cons]; omega)).trans (seat_frame ..)).trans (ih _)
    · exact .refl s

theorem serve_frame (s : State) : EdgeFrame s (serve s) := serveWaiting_frame _ s

/-! Raises and returns -/

/-- What a raise can do (R124, R126, R127, R133). -/
theorem raise_frame (k : Key) (sev : Severity) (x : List Byte) (s : State) : EdgeFrame s (raise k sev x s) := by
  unfold raise
  dsimp only
  have h := countRaise_frame s
  split
  · exact h.trans (raiseSeated_frame ..)
  · split
    · exact (h.trans (setWaiting_frame _ _ (by rw [List.length_map]; omega))).trans (countSuppression_frame ..)
    · split
      · exact h.trans (seat_frame ..)
      · exact (h.trans (setWaiting_frame _ _ (enlist_length ..))).trans (countSuppression_frame ..)

theorem raiseKind_frame (k : Kind) (n : Nat) (x : List Byte) (s : State) : EdgeFrame s (raiseKind k n x s) :=
  raise_frame ..

/-- What a return can do (R125, R133). -/
theorem returnKey_frame (k : Key) (s : State) : EdgeFrame s (returnKey k s) := by
  unfold returnKey
  split
  · split
    · exact changeRecord_frame ..
    · dsimp only
      split
      · exact changeRecord_frame ..
      · exact (changeRecord_frame ..).trans (serve_frame _)
    · exact .refl s
  · exact setWaiting_frame _ s (Nat.le_trans (List.length_filter_le _ _) (by omega))

theorem returnKind_frame (k : Kind) (n : Nat) (s : State) : EdgeFrame s (returnKind k n s) := returnKey_frame ..

theorem offerEdge_frame (e : Edge) (s : State) : EdgeFrame s (offerEdge e s) := by
  unfold offerEdge
  split
  · exact raiseKind_frame ..
  · exact returnKind_frame ..

/-- A fold of steps that each keep a frame keeps it. -/
theorem foldl_frame {α : Type} (R : State → State → Prop) (hr : ∀ s, R s s)
    (ht : ∀ {s t u}, R s t → R t u → R s u) (f : State → α → State) (hf : ∀ s a, R s (f s a)) (l : List α) (s : State) :
    R s (l.foldl f s) := by
  induction l generalizing s with
  | nil => exact hr s
  | cons a l ih => exact ht (hf s a) (ih _)

theorem edges_frame {α : Type} (f : State → α → State) (hf : ∀ s a, EdgeFrame s (f s a)) (l : List α) (s : State) :
    EdgeFrame s (l.foldl f s) := foldl_frame EdgeFrame .refl .trans f hf l s

theorem testSaturation_frame (s : State) : EdgeFrame s (testSaturation s) := by
  unfold testSaturation
  split
  · exact (onTable_frame _ s rfl (Nat.le_max_right _ _)).trans (returnKey_frame _ _)
  · exact .refl s

theorem removeRecord_frame (i : Nat) (s : State) : EdgeFrame s (removeRecord i s) :=
  (onTable_frame _ s (by simp) (Nat.le_max_right _ _)).trans (setFlag_frame _ _)

theorem retireSlot_frame (i : Nat) (s : State) : EdgeFrame s (retireSlot i s) := by
  unfold retireSlot
  split
  · exact removeRecord_frame i s
  · exact (removeRecord_frame i s).trans (serve_frame _)

theorem unshelveSlot_frame (i : Nat) (s : State) : EdgeFrame s (unshelveSlot i s) := by
  unfold unshelveSlot
  split
  · exact .refl s
  · dsimp only
    split
    · exact (changeRecord_frame ..).trans (onAnn_silence_frame false _)
    · exact changeRecord_frame ..

theorem enforceMaskAt_frame (i : Nat) (s : State) : EdgeFrame s (enforceMaskAt i s) := by
  unfold enforceMaskAt
  split
  · exact unshelveSlot_frame ..
  · exact .refl s

theorem makeChange_frame (c : Change) (s : State) : EdgeFrame s (makeChange c s) := by
  cases c
  · exact offerEdge_frame ..
  · exact enforceMaskAt_frame ..

theorem makeNext_frame (n : Nat) (stages : List (List Change)) (free : List Change) (s : State) :
    EdgeFrame s (makeNext n stages free s) := by
  induction n generalizing stages free s with
  | zero => exact .refl s
  | succ n ih =>
    unfold makeNext
    split
    · exact (makeChange_frame ..).trans (ih ..)
    · exact .refl s

/-- What changes that no rule orders may do to the state, whatever their order. -/
theorem makeChanges_frame (stages : List (List Change)) (free : List Change) (s : State) :
    EdgeFrame s (makeChanges stages free s) := makeNext_frame ..

theorem offerEdges_frame (es : List Edge) (s : State) : EdgeFrame s (offerEdges es s) := makeChanges_frame ..

theorem offerStages_frame (stages : List (List Edge)) (free : List Edge) (s : State) :
    EdgeFrame s (offerStages stages free s) := makeChanges_frame ..

theorem clearNoticeMarks_frame (s : State) : EdgeFrame s (clearNoticeMarks s) :=
  onTable_frame _ s (by simp) (Nat.le_max_right _ _)

end Sys2Proof.Machine
end

