-- ==== Sys2Proof/Laws/Plant.lean ====
section
/-!
SUPPORT. What a settling can do: one frame lemma for each operation of the Sequencer, the Allocator and the Rake
Controller that calls, grants and sheds move, all of them instances of PlantFrame.
-/

namespace Sys2Proof.Machine

/-! The relation composes -/

theorem PlantFrame.refl (s : State) : PlantFrame s s :=
  ⟨.refl s, rfl, id, rfl, fun _ => rfl, fun _ => rfl, fun _ h => h⟩

theorem PlantFrame.trans {s t u : State} (h : PlantFrame s t) (k : PlantFrame t u) : PlantFrame s u where
  toCommonFrame := h.toCommonFrame.trans k.toCommonFrame
  duty := by rw [k.duty, h.duty]
  ladder := fun x => k.ladder (h.ladder x)
  power := by rw [k.power, h.power]
  pumps := fun p => by rw [k.pumps p, h.pumps p]; rfl
  screens := fun n => by rw [k.screens n, h.screens n]; rfl
  motors := fun n x => k.motors n (h.motors n x)

theorem EdgeFrame.plant {s t : State} (h : EdgeFrame s t) : PlantFrame s t where
  toCommonFrame := h.toCommonFrame
  duty := by rw [h.duty]
  ladder := by rw [h.duty]; exact id
  power := by rw [h.power]
  pumps := fun p => by rw [h.pump p]; rfl
  screens := fun n => by rw [h.screen n]; rfl
  motors := fun n => by rw [h.screen n]; exact id

theorem plant_foldl {α : Type} (f : State → α → State) (hf : ∀ s a, PlantFrame s (f s a)) (l : List α) (s : State) :
    PlantFrame s (l.foldl f s) := foldl_frame PlantFrame .refl .trans f hf l s

/-! The primitive changes -/

theorem onPump_frame (p : Ix6) (f : Pump → Pump) (s : State) (h : ∀ q, f q = q.settled (f q)) :
    PlantFrame s (s.onPump p f) where
  clock := rfl
  level := rfl
  balance := rfl
  store := rfl
  shown := rfl
  pending := rfl
  ann := rfl
  port := rfl
  flags := Attention.within_refl _
  attn := id
  link := rfl
  wakes := .inl rfl
  still := fun _ => rfl
  woke := fun h => absurd rfl h
  slots := rfl
  waiting := Nat.le_max_right _ _
  duty := rfl
  ladder := id
  power := rfl
  pumps := fun q => by
    rw [State.onPump_pump]; split
    · exact h _
    · rfl
  screens := fun _ => rfl
  motors := fun _ => id

theorem onScreen_frame (n : Ix2) (f : Screen → Screen) (s : State) (h : ∀ a, f a = a.settled (f a))
    (hm : ∀ a, a.exclusive → (f a).exclusive) : PlantFrame s (s.onScreen n f) where
  clock := rfl
  level := rfl
  balance := rfl
  store := rfl
  shown := rfl
  pending := rfl
  ann := rfl
  port := rfl
  flags := Attention.within_refl _
  attn := id
  link := rfl
  wakes := .inl rfl
  still := fun _ => rfl
  woke := fun h => absurd rfl h
  slots := rfl
  waiting := Nat.le_max_right _ _
  duty := rfl
  ladder := id
  power := rfl
  pumps := fun _ => rfl
  screens := fun m => by
    rw [State.onScreen_screen]; split
    · exact h _
    · rfl
  motors := fun m => by
    rw [State.onScreen_screen]; split
    · exact hm _
    · exact id

theorem onPower_frame (f : Power → Power) (s : State)
    (h : ∀ w, f w = { w with ack := (f w).ack, queue := (f w).queue, stagger := (f w).stagger }) :
    PlantFrame s (s.onPower f) where
  clock := rfl
  level := rfl
  balance := rfl
  store := rfl
  shown := rfl
  pending := rfl
  ann := rfl
  port := rfl
  flags := Attention.within_refl _
  attn := id
  link := rfl
  wakes := .inl rfl
  still := fun _ => rfl
  woke := fun h => absurd rfl h
  slots := rfl
  waiting := Nat.le_max_right _ _
  duty := rfl
  ladder := id
  power := h _
  pumps := fun _ => rfl
  screens := fun _ => rfl
  motors := fun _ => id

/-- A change of one screen, and what follows it. -/
theorem onScreen_then {n : Ix2} {f : Screen → Screen} {s u : State} (k : PlantFrame (s.onScreen n f) u)
    (h : ∀ a, f a = a.settled (f a)) (hm : ∀ a, a.exclusive → (f a).exclusive) : PlantFrame s u :=
  (onScreen_frame n f s h hm).trans k

/-- A change of one pump, and what follows it. -/
theorem onPump_then {p : Ix6} {f : Pump → Pump} {s u : State} (k : PlantFrame (s.onPump p f) u)
    (h : ∀ q, f q = q.settled (f q)) : PlantFrame s u :=
  (onPump_frame p f s h).trans k

/-- A change of the power, and what follows it. -/
theorem onPower_then {f : Power → Power} {s u : State} (k : PlantFrame (s.onPower f) u)
    (h : ∀ w, f w = { w with ack := (f w).ack, queue := (f w).queue, stagger := (f w).stagger }) : PlantFrame s u :=
  (onPower_frame f s h).trans k

/-- Every called field follows a set. -/
theorem formCalled_frame (s : State) : PlantFrame s (formCalled s) where
  clock := rfl
  level := rfl
  balance := rfl
  store := rfl
  shown := rfl
  pending := rfl
  ann := rfl
  port := rfl
  flags := Attention.within_refl _
  attn := id
  link := rfl
  wakes := .inl rfl
  still := fun _ => rfl
  woke := fun h => absurd rfl h
  slots := rfl
  waiting := Nat.le_max_right _ _
  duty := rfl
  ladder := id
  power := rfl
  pumps := fun p => by cases p <;> rfl
  screens := fun _ => rfl
  motors := fun _ => id

/-! The ladder (R49) -/

theorem LadderOk.mem {l : List Ix6} (h : LadderOk l) (p : Ix6) : p ∈ l :=
  h.mem_iff.mpr (by cases p <;> decide)

theorem LadderOk.nodup {l : List Ix6} (h : LadderOk l) : l.Nodup :=
  h.nodup_iff.mpr (by decide)

theorem filter_ne_of_not_mem {p : Ix6} {l : List Ix6} (h : p ∉ l) : l.filter (· ≠ p) = l := by
  rw [List.filter_eq_self]
  intro a ha
  simp only [ne_eq, decide_eq_true_eq]
  intro e; subst e; exact h ha

/-- Moving a pump to the tail keeps the ladder a permutation. -/
theorem toTail_ok (p : Ix6) {l : List Ix6} (h : LadderOk l) : LadderOk (toTail p l) := by
  obtain ⟨a, b, rfl⟩ := List.append_of_mem (h.mem p)
  have hn := h.nodup
  rw [List.nodup_append] at hn
  obtain ⟨_, hb, hd⟩ := hn
  have ha : p ∉ a := fun x => hd p x p (List.mem_cons_self) rfl
  have hb' : p ∉ b := (List.nodup_cons.mp hb).1
  unfold toTail LadderOk
  rw [List.filter_append, filter_ne_of_not_mem ha, List.filter_cons]
  simp only [ne_eq, not_true_eq_false, decide_false, Bool.false_eq_true, if_false]
  rw [filter_ne_of_not_mem hb']
  refine List.Perm.trans ?_ h
  rw [List.append_assoc]
  exact List.Perm.append_left a (List.perm_append_singleton p b)

theorem onLadder_frame (f : List Ix6 → List Ix6) (s : State) (h : LadderOk s.duty.ladder → LadderOk (f s.duty.ladder)) :
    PlantFrame s (s.onDuty fun d => { d with ladder := f d.ladder }) where
  clock := rfl
  level := rfl
  balance := rfl
  store := rfl
  shown := rfl
  pending := rfl
  ann := rfl
  port := rfl
  flags := Attention.within_refl _
  attn := id
  link := rfl
  wakes := .inl rfl
  still := fun _ => rfl
  woke := fun h => absurd rfl h
  slots := rfl
  waiting := Nat.le_max_right _ _
  duty := rfl
  ladder := h
  power := rfl
  pumps := fun _ => rfl
  screens := fun _ => rfl
  motors := fun _ => id

/-! The claim queue and the shed marks -/

theorem joinQueue_frame (c : Claimant) (s : State) : PlantFrame s (joinQueue c s) := by
  unfold joinQueue
  split
  · exact .refl s
  · exact onPower_frame _ s fun _ => rfl

theorem leaveQueue_frame (c : Claimant) (s : State) : PlantFrame s (leaveQueue c s) := onPower_frame _ s fun _ => rfl

theorem setMark_frame (c : Claimant) (v : Bool) (s : State) : PlantFrame s (setMark c v s) := by
  cases c
  · exact onPump_frame _ _ s fun _ => rfl
  · exact onScreen_frame _ _ s (fun _ => rfl) fun _ h => h

theorem markShed_frame (c : Claimant) (short : Nat) (s : State) : PlantFrame s (markShed c short s) := by
  unfold markShed
  dsimp only
  split
  · exact setMark_frame ..
  · exact (setMark_frame ..).trans (raiseKind_frame ..).plant

theorem clearShed_frame (c : Claimant) (s : State) : PlantFrame s (clearShed c s) :=
  (setMark_frame ..).trans (offerEdges_frame ..).plant

theorem waitNoMore_frame (c : Claimant) (s : State) : PlantFrame s (waitNoMore c s) :=
  (leaveQueue_frame ..).trans (setMark_frame ..)

theorem quitQueue_frame (c : Claimant) (s : State) : PlantFrame s (quitQueue c s) :=
  (waitNoMore_frame ..).trans (offerEdges_frame ..).plant

/-! Pumps -/

theorem reviewStarts_frame (p : Ix6) (s : State) : PlantFrame s (reviewStarts p s) :=
  onPump_then (offerEdges_frame _ _).plant fun _ => rfl

/-- What a stop can do (R69): of the ladder, a move to the tail. -/
theorem stopPump_frame (r : StopReason) (p : Ix6) (s : State) : PlantFrame s (stopPump r p s) := by
  unfold stopPump
  dsimp only
  split
  · exact onPump_then (onLadder_frame (toTail p) _ (toTail_ok p)) fun _ => rfl
  · exact onPump_frame p _ s fun _ => rfl

theorem grantPump_frame (p : Ix6) (s : State) : PlantFrame s (grantPump p s) :=
  onPump_then (onPower_then (offerEdges_frame _ _).plant fun _ => rfl) fun _ => rfl

theorem unqueuePump_frame (p : Ix6) (s : State) : PlantFrame s (unqueuePump p s) :=
  onPump_then (quitQueue_frame ..) fun _ => rfl

theorem queuePump_frame (p : Ix6) (s : State) : PlantFrame s (queuePump p s) :=
  onPump_then (joinQueue_frame ..) fun _ => rfl

/-! Rakes -/

/-- A screen's outputs once driven are not both energised. -/
theorem drive_exclusive (d : Option Dir) (sc : Screen) : (sc.drive d).exclusive := by
  unfold Screen.exclusive Screen.drive
  rcases d with _ | d
  · simp
  · cases d <;> simp

theorem writeCompletion_frame (n : Ix2) (o : Nat) (r : RakeOutcome) (c : Nat) (s : State) :
    PlantFrame s (writeCompletion n o r c s) :=
  onScreen_then (setFlag_frame ..).plant (fun _ => rfl) (fun _ h => h)

theorem beginOp_frame (n : Ix2) (op : Operation) (s : State) : PlantFrame s (beginOp n op s) :=
  onScreen_then (joinQueue_frame ..) (fun _ => rfl) (fun a _ => drive_exclusive none a)

theorem rest_frame (n : Ix2) (st : RakeState) (s : State) : PlantFrame s (s.onScreen n (Screen.rest st)) :=
  onScreen_frame n _ s (fun _ => rfl) fun a _ => drive_exclusive none a

theorem enterIdle_frame (n : Ix2) (s : State) : PlantFrame s (enterIdle n s) := by
  exact onScreen_frame n _ s (fun _ => rfl) fun a _ => drive_exclusive none a

theorem testIdle_frame (n : Ix2) (s : State) : PlantFrame s (testIdle n s) := by
  have h : PlantFrame s (s.onScreen n fun sc => { sc with untested := false }) :=
    onScreen_frame n _ s (fun _ => rfl) fun _ h => h
  unfold testIdle
  dsimp only
  split
  · exact h.trans (beginOp_frame ..)
  · exact h

theorem enterHeld_frame (n : Ix2) (s : State) : PlantFrame s (enterHeld n s) :=
  (rest_frame n .held s).trans (raiseKind_frame ..).plant

theorem finishPosition_frame (n : Ix2) (s : State) : PlantFrame s (finishPosition n s) :=
  (writeCompletion_frame ..).trans (enterHeld_frame ..)

theorem finishHoming_frame (n : Ix2) (s : State) : PlantFrame s (finishHoming n s) :=
  onScreen_then ((writeCompletion_frame ..).trans (enterIdle_frame ..)) (fun _ => rfl)
    (fun a _ => drive_exclusive none a)

theorem energise_frame (n : Ix2) (st : RakeState) (d : Dir) (s : State) : PlantFrame s (energise n st d s) :=
  onScreen_frame n _ s (fun _ => rfl) fun a _ => drive_exclusive (some d) a

theorem startLeg_frame (n : Ix2) (d : Dir) (s : State) : PlantFrame s (startLeg n d s) :=
  onScreen_frame n _ s (fun _ => rfl) fun _ h => h

theorem enterGripping_frame (n : Ix2) (s : State) : PlantFrame s (enterGripping n s) :=
  onScreen_frame n _ s (fun _ => rfl) fun a _ => drive_exclusive none a

theorem enterDischarging_frame (n : Ix2) (s : State) : PlantFrame s (enterDischarging n s) :=
  onScreen_frame n _ s (fun _ => rfl) fun a _ => drive_exclusive none a

theorem checkLimit_frame (n : Ix2) (s : State) : PlantFrame s (checkLimit n s) := by
  unfold checkLimit
  dsimp only
  split
  · split
    · exact enterGripping_frame ..
    · exact .refl s
  · split
    · exact enterDischarging_frame ..
    · exact .refl s
  · split
    · exact finishHoming_frame ..
    · exact .refl s
  · split
    · exact onScreen_then (finishPosition_frame ..) (fun _ => rfl) (fun _ h => h)
    · split
      · exact finishPosition_frame ..
      · exact .refl s
  · exact .refl s

theorem beginLeg_frame (n : Ix2) (st : RakeState) (d : Dir) (s : State) : PlantFrame s (beginLeg n st d s) :=
  ((startLeg_frame ..).trans (energise_frame ..)).trans (checkLimit_frame ..)

theorem firstStage_frame (n : Ix2) (s : State) : PlantFrame s (firstStage n s) := by
  unfold firstStage
  split
  · exact onScreen_then (beginLeg_frame ..) (fun _ => rfl) (fun _ h => h)
  · exact onScreen_then (beginLeg_frame ..) (fun _ => rfl) (fun _ h => h)
  · exact beginLeg_frame ..
  · split
    · exact finishPosition_frame ..
    · split
      · exact beginLeg_frame ..
      · exact beginLeg_frame ..
  · exact .refl s

theorem endReverse_frame (n : Ix2) (s : State) : PlantFrame s (endReverse n s) :=
  onScreen_then (energise_frame ..) (fun _ => rfl) (fun _ h => h)

theorem enterReversing_frame (n : Ix2) (s : State) : PlantFrame s (enterReversing n s) :=
  onScreen_then (energise_frame ..) (fun _ => rfl) (fun _ h => h)

theorem limitInReverse_frame (n : Ix2) (b : Bool) (s : State) : PlantFrame s (limitInReverse n b s) := by
  unfold limitInReverse
  split
  · exact onScreen_then (endReverse_frame ..) (fun _ => rfl) (fun _ h => h)
  · exact endReverse_frame ..

theorem resumeStage_frame (n : Ix2) (st : RakeState) (s : State) : PlantFrame s (resumeStage n st s) := by
  cases st
  case gripping | discharging => exact onScreen_frame n _ s (fun _ => rfl) fun _ h => h
  case descending | ascending | homing | positioning => exact (energise_frame ..).trans (checkLimit_frame ..)
  case reversing =>
    unfold resumeStage
    dsimp only
    split
    · exact (enterReversing_frame ..).trans (limitInReverse_frame ..)
    · split
      · exact (enterReversing_frame ..).trans (limitInReverse_frame ..)
      · exact enterReversing_frame ..
  all_goals exact .refl s

theorem grantRake_frame (n : Ix2) (s : State) : PlantFrame s (grantRake n s) := by
  unfold grantRake
  dsimp only
  have h := (onScreen_frame n (fun sc => { sc with claim := some (s.running.rakeUnits n) }) s (fun _ => rfl)
    fun _ h => h).trans (clearShed_frame (.rake n) _)
  refine h.trans ?_
  split
  · exact onScreen_then (resumeStage_frame ..) (fun _ => rfl) (fun _ h => h)
  · exact firstStage_frame ..

theorem pauseRake_frame (n : Ix2) (s : State) : PlantFrame s (pauseRake n s) :=
  onScreen_then (joinQueue_frame ..) (fun _ => rfl) (fun a _ => drive_exclusive none a)

/-! Settling -/

theorem shed_frame (short : Nat) (c : Claimant) (s : State) : PlantFrame s (shed short c s) := by
  unfold shed
  have h := (markShed_frame c short s).trans (setFlag_frame .power _).plant
  cases c
  · exact h.trans (stopPump_frame ..)
  · exact h.trans (pauseRake_frame ..)

theorem shedAll_frame (s : State) : PlantFrame s (shedAll s) := by
  refine plant_foldl _ (fun s c => ?_) _ s
  unfold shedNext
  split
  · exact shed_frame ..
  · exact .refl s

theorem grant_frame (c : Claimant) (s : State) : PlantFrame s (grant c s) := by
  unfold grant
  cases c
  · exact (leaveQueue_frame ..).trans (grantPump_frame ..)
  · exact (leaveQueue_frame ..).trans (grantRake_frame ..)

/-- Every move that an event leaves to do keeps the frame. -/
theorem nextMove_frame {s : State} {f : State → State} (h : nextMove s = some f) (t : State) : PlantFrame t (f t) := by
  unfold nextMove at h
  split at h
  · cases h; exact shedAll_frame t
  split at h
  · cases h; exact stopPump_frame ..
  split at h
  · cases h; exact unqueuePump_frame ..
  split at h
  · cases h; exact queuePump_frame ..
  split at h
  · cases h; exact grant_frame ..
  · obtain ⟨n, -, rfl⟩ := Option.map_eq_some_iff.mp h
    exact testIdle_frame ..

theorem settleMoves_frame (n : Nat) (s : State) : PlantFrame s (settleMoves n s) := by
  induction n generalizing s with
  | zero => exact formCalled_frame s
  | succ n ih =>
    unfold settleMoves
    dsimp only
    split
    · rename_i f hf
      exact ((formCalled_frame s).trans (nextMove_frame hf _)).trans (ih _)
    · exact formCalled_frame s

theorem clearIdleShed_frame (s : State) : PlantFrame s (clearIdleShed s) := by
  refine plant_foldl _ (fun s p => ?_) _ s
  split
  · exact clearShed_frame ..
  · exact .refl s

theorem testAck_frame (s : State) : PlantFrame s (testAck s) := by
  unfold testAck
  split
  · exact onPower_then (setFlag_frame ..).plant fun _ => rfl
  · exact .refl s

/-- What a settling can do. -/
theorem settle_frame (s : State) : PlantFrame s (settle s) :=
  ((settleMoves_frame ..).trans (clearIdleShed_frame _)).trans (testAck_frame _)

end Sys2Proof.Machine
end

