-- ==== Sys2Proof/Laws/Conclude.lean ====
section
/-!
SUPPORT. What the local outputs and the transmitter can do at the end of an event: the parts of ConcludeFrame that stand
beside the settling's.
-/

namespace Sys2Proof.Machine

/-! The local outputs (R146 to R151) -/

@[simp] theorem annunciate_clock (s : State) : (annunciate s).clock = s.clock := rfl
@[simp] theorem annunciate_table (s : State) : (annunciate s).table = s.table := rfl
@[simp] theorem annunciate_port (s : State) : (annunciate s).port = s.port := rfl
@[simp] theorem annunciate_link (s : State) : (annunciate s).link = s.link := rfl
@[simp] theorem annunciate_flashOn (s : State) : (annunciate s).ann.flashOn = s.ann.flashOn := rfl

/-! The transmitter (R175, R182) -/

/-- What a free transmitter's choice touches: the link's line, and a notice mark of one slot. -/
structure SendFrame (s t : State) : Prop where
  clock : t.clock = s.clock
  level : t.level = s.level
  balance : t.balance = s.balance
  pumps : t.pumps = s.pumps
  duty : t.duty = s.duty
  power : t.power = s.power
  screens : t.screens = s.screens
  ann : t.ann = s.ann
  port : t.port = s.port
  store : t.store = s.store
  shown : t.shown = s.shown
  pending : t.pending = s.pending
  slots : t.table.slots.length = s.table.slots.length
  waiting : t.table.waiting = s.table.waiting
  link : t.link = { s.link with
    statusOwed := t.link.statusOwed, wakesOwed := t.link.wakesOwed, offersOwed := t.link.offersOwed
    sending := t.link.sending, requests := t.link.requests, credits := t.link.credits }
  credits : t.link.credits ≤ s.link.credits
  requests : t.link.requests.map (fun r => (r.tag, r.response)) = s.link.requests.map (fun r => (r.tag, r.response))

theorem SendFrame.refl (s : State) : SendFrame s s :=
  ⟨rfl, rfl, rfl, rfl, rfl, rfl, rfl, rfl, rfl, rfl, rfl, rfl, rfl, rfl, rfl, Nat.le_refl _, rfl⟩

/-- Putting a response on the line changes neither the tags nor the responses (R183). -/
theorem markOnLine_same (l : List Request) :
    (markOnLine l).map (fun r => (r.tag, r.response)) = l.map (fun r => (r.tag, r.response)) := by
  induction l with
  | nil => rfl
  | cons r l ih =>
    unfold markOnLine
    split
    · rfl
    · rw [List.map_cons, List.map_cons, ih]

theorem sendNoticeFrame_frame (o : Owing) (s : State) : SendFrame s (sendNoticeFrame o s) := by
  unfold sendNoticeFrame
  dsimp only
  split
  · exact ⟨rfl, rfl, rfl, rfl, rfl, rfl, rfl, rfl, rfl, rfl, rfl, rfl, by simp [sendFrame], rfl, rfl, Nat.sub_le _ _, rfl⟩
  · exact ⟨rfl, rfl, rfl, rfl, rfl, rfl, rfl, rfl, rfl, rfl, rfl, rfl, by simp [sendFrame], rfl, rfl, Nat.sub_le _ _, rfl⟩

theorem chooseJoined_frame (s : State) : SendFrame s (chooseJoined s) := by
  unfold chooseJoined
  dsimp only
  split
  · exact ⟨rfl, rfl, rfl, rfl, rfl, rfl, rfl, rfl, rfl, rfl, rfl, rfl, rfl, rfl, rfl, Nat.le_refl _, rfl⟩
  split
  · exact ⟨rfl, rfl, rfl, rfl, rfl, rfl, rfl, rfl, rfl, rfl, rfl, rfl, rfl, rfl, rfl, Nat.le_refl _, markOnLine_same _⟩
  split
  · exact ⟨rfl, rfl, rfl, rfl, rfl, rfl, rfl, rfl, rfl, rfl, rfl, rfl, rfl, rfl, rfl, Nat.le_refl _, rfl⟩
  split
  · split
    · exact sendNoticeFrame_frame ..
    · exact .refl s
  · exact .refl s

/-- What a free transmitter can do (R175). -/
theorem transmit_frame (s : State) : SendFrame s (transmit s) := by
  unfold transmit
  split
  · exact .refl s
  split
  · split
    · exact ⟨rfl, rfl, rfl, rfl, rfl, rfl, rfl, rfl, rfl, rfl, rfl, rfl, rfl, rfl, rfl, Nat.le_refl _, rfl⟩
    · exact .refl s
  · exact chooseJoined_frame s
  · exact chooseJoined_frame s
  · exact .refl s
  · exact .refl s

/-- A busy transmitter takes nothing (R175). -/
theorem transmit_busy {s : State} (h : s.link.sending.isSome = true) : transmit s = s := by
  unfold transmit; rw [if_pos h]

/-- The saturation test and the settling before it, as one plant frame. -/
theorem settled_frame (s : State) : PlantFrame s (testSaturation (settle s)) :=
  (settle_frame s).trans (testSaturation_frame _).plant

end Sys2Proof.Machine
end

