-- ==== Sys2Proof/Laws/Keeps.lean ====
section
/-!
SUPPORT. What every operation keeps: the ladder a permutation (R49), one motor direction at a time (R98), the sizes of the
Condition Table (R121, R133), ATTN as its flags form it (R169), and the credits within the grant (R181). One lemma for
each operation of the plant.
-/

namespace Sys2Proof.Machine

/-- The five promises pass from one state to another. -/
structure Keeps (s t : State) : Prop where
  ladder : LadderOk s.duty.ladder → LadderOk t.duty.ladder
  motors : MotorsExclusive s → MotorsExclusive t
  table : TableOk s.table → TableOk t.table
  attn : AttnOk s.port → AttnOk t.port
  credits : CreditsOk s.link → CreditsOk t.link

theorem Keeps.refl (s : State) : Keeps s s := ⟨id, id, id, id, id⟩

theorem Keeps.trans {s t u : State} (h : Keeps s t) (k : Keeps t u) : Keeps s u :=
  ⟨fun x => k.ladder (h.ladder x), fun x => k.motors (h.motors x), fun x => k.table (h.table x),
    fun x => k.attn (h.attn x), fun x => k.credits (h.credits x)⟩

theorem keeps_foldl {α : Type} (f : State → α → State) (hf : ∀ s a, Keeps s (f s a)) (l : List α) (s : State) :
    Keeps s (l.foldl f s) := foldl_frame Keeps .refl .trans f hf l s

theorem CommonFrame.keepsCredits {s t : State} (h : CommonFrame s t) : CreditsOk s.link → CreditsOk t.link := by
  intro ⟨a, b, c⟩
  have hc : t.link.credits = s.link.credits := by rw [h.link]
  have hg : t.link.grant = s.link.grant := by rw [h.link]
  have hr : t.link.requests = s.link.requests := by rw [h.link]
  refine ⟨by rw [hc, hg]; exact a, fun hs => ?_, by rw [hr]; exact c⟩
  rw [hc]
  rcases h.wakes with e | ⟨_, e⟩
  · exact b (by rw [← e]; exact hs)
  · rw [e] at hs; rcases hs with x | x | x <;> cases x

theorem CommonFrame.keepsTable {s t : State} (h : CommonFrame s t) : TableOk s.table → TableOk t.table :=
  fun ⟨a, b⟩ => ⟨h.slots.trans a, by have := h.waiting; omega⟩

theorem PlantFrame.keeps {s t : State} (h : PlantFrame s t) : Keeps s t where
  ladder := h.ladder
  motors := fun m n => h.motors n (m n)
  table := h.keepsTable
  attn := h.attn
  credits := h.keepsCredits

theorem EdgeFrame.keeps {s t : State} (h : EdgeFrame s t) : Keeps s t := h.plant.keeps

/-! Updates of one block -/

theorem keepsClock (f : Clock → Clock) (s : State) : Keeps s (s.onClock f) := ⟨id, id, id, id, id⟩
theorem keepsLevel (f : Level → Level) (s : State) : Keeps s (s.onLevel f) := ⟨id, id, id, id, id⟩
theorem keepsBalance (f : Balance → Balance) (s : State) : Keeps s (s.onBalance f) := ⟨id, id, id, id, id⟩
theorem keepsPump (p : Ix6) (f : Pump → Pump) (s : State) : Keeps s (s.onPump p f) := ⟨id, id, id, id, id⟩
theorem keepsPumps (v : Six Pump) (s : State) : Keeps s { s with pumps := v } := ⟨id, id, id, id, id⟩
theorem keepsPower (f : Power → Power) (s : State) : Keeps s (s.onPower f) := ⟨id, id, id, id, id⟩
theorem keepsAnn (f : Annunciator → Annunciator) (s : State) : Keeps s (s.onAnn f) := ⟨id, id, id, id, id⟩
theorem keepsStore (f : Store → Store) (s : State) : Keeps s (s.onStore f) := ⟨id, id, id, id, id⟩

/-- A change of the duty that leaves the ladder. -/
theorem keepsDuty (f : Duty → Duty) (s : State) (h : (f s.duty).ladder = s.duty.ladder) : Keeps s (s.onDuty f) :=
  ⟨fun x => by rw [State.onDuty_duty, h]; exact x, id, id, id, id⟩

/-- A change of one screen whose outputs stay exclusive, and what follows it. -/
theorem keepsScreen {n : Ix2} {f : Screen → Screen} {s u : State} (k : Keeps (s.onScreen n f) u)
    (h : ∀ a, a.exclusive → (f a).exclusive) : Keeps s u :=
  Keeps.trans (t := s.onScreen n f) ⟨id, fun m i => by
    rw [State.onScreen_screen]; split
    · exact h _ (m i)
    · exact m i, id, id, id⟩ k

theorem keepsTable (f : Table → Table) (s : State) (hs : (f s.table).slots.length = s.table.slots.length)
    (hw : (f s.table).waiting.length ≤ max 16 s.table.waiting.length) : Keeps s (s.onTable f) :=
  (onTable_frame f s hs hw).keeps

/-- A change of the port that leaves flags, enables and ATTN. -/
theorem keepsPort (f : Port → Port) (s : State) (h : AttnOk s.port → AttnOk (f s.port)) : Keeps s (s.onPort f) :=
  ⟨id, id, id, h, id⟩

/-- A change of the link that keeps the promise on the credits. -/
theorem keepsLink (f : Link → Link) (s : State) (h : CreditsOk s.link → CreditsOk (f s.link)) : Keeps s (s.onLink f) :=
  ⟨id, id, id, id, h⟩

/-- Credits, grant and requests as they were, in a state that holds credits wherever the old one did. -/
theorem CreditsOk.same {l m : Link} (h : CreditsOk l) (hc : m.credits = l.credits) (hg : m.grant = l.grant)
    (hs : (m.state = .offline ∨ m.state = .joining ∨ m.state = .lost) → l.credits = 0)
    (hr : m.requests.length ≤ l.requests.length) : CreditsOk m := by
  obtain ⟨a, _, c⟩ := h
  exact ⟨by rw [hc, hg]; exact a, fun x => hc.trans (hs x), Nat.le_trans hr c⟩

/-- The promise where no credit is held. -/
theorem CreditsOk.none {m : Link} (hc : m.credits = 0) (hr : m.requests.length ≤ 4) : CreditsOk m :=
  ⟨by rw [hc]; exact Nat.zero_le _, fun _ => hc, hr⟩

/-- The promise in the two states that hold credits. -/
theorem CreditsOk.joined {m : Link} (hs : m.state = .online ∨ m.state = .quiet) (hc : m.credits ≤ m.grant.getD 0)
    (hr : m.requests.length ≤ 4) : CreditsOk m :=
  ⟨hc, fun x => by rcases hs with e | e <;> (rw [e] at x; rcases x with x | x | x <;> cases x), hr⟩

/-! The end of an event -/

theorem SendFrame.keeps {s t : State} (h : SendFrame s t) : Keeps s t where
  ladder := by rw [h.duty]; exact id
  motors := by unfold MotorsExclusive State.screen; rw [h.screens]; exact id
  table := fun ⟨a, b⟩ => ⟨h.slots.trans a, by rw [h.waiting]; exact b⟩
  attn := by rw [h.port]; exact id
  credits := by
    intro ⟨a, b, c⟩
    have hg : t.link.grant = s.link.grant := by rw [h.link]
    have hs : t.link.state = s.link.state := by rw [h.link]
    have hr := congrArg List.length h.requests
    rw [List.length_map, List.length_map] at hr
    refine ⟨by rw [hg]; exact Nat.le_trans h.credits a, fun x => ?_, by rw [hr]; exact c⟩
    have := b (by rw [← hs]; exact x)
    have := h.credits
    omega

theorem transmit_keeps (s : State) : Keeps s (transmit s) := (transmit_frame s).keeps

theorem annunciate_keeps (s : State) : Keeps s (annunciate s) := ⟨id, id, id, id, id⟩

theorem settle_keeps (s : State) : Keeps s (settle s) := (settle_frame s).keeps

theorem conclude_keeps (s : State) : Keeps s (conclude s) :=
  ((settled_frame s).keeps.trans (annunciate_keeps _)).trans (transmit_keeps _)

theorem setFlag_keeps (f : Flag) (s : State) : Keeps s (setFlag f s) := (setFlag_frame f s).keeps
theorem wakeLink_keeps (b : Bool) (s : State) : Keeps s (wakeLink b s) := (wakeLink_frame b s).keeps
theorem changeRecord_keeps (i : Nat) (f : Record → Record) (s : State) : Keeps s (changeRecord i f s) :=
  (changeRecord_frame i f s).keeps
theorem serve_keeps (s : State) : Keeps s (serve s) := (serve_frame s).keeps
theorem raiseKind_keeps (k : Kind) (n : Nat) (x : List Byte) (s : State) : Keeps s (raiseKind k n x s) :=
  (raiseKind_frame k n x s).keeps
theorem returnKey_keeps (k : Key) (s : State) : Keeps s (returnKey k s) := (returnKey_frame k s).keeps
theorem returnKind_keeps (k : Kind) (n : Nat) (s : State) : Keeps s (returnKind k n s) := (returnKind_frame k n s).keeps
theorem offerEdges_keeps (es : List Edge) (s : State) : Keeps s (offerEdges es s) := (offerEdges_frame es s).keeps
theorem offerStages_keeps (stages : List (List Edge)) (free : List Edge) (s : State) :
    Keeps s (offerStages stages free s) := (offerStages_frame stages free s).keeps
theorem waitNoMore_keeps (c : Claimant) (s : State) : Keeps s (waitNoMore c s) := (waitNoMore_frame c s).keeps
theorem quitQueue_keeps (c : Claimant) (s : State) : Keeps s (quitQueue c s) := (quitQueue_frame c s).keeps
theorem stopPump_keeps (r : StopReason) (p : Ix6) (s : State) : Keeps s (stopPump r p s) := (stopPump_frame r p s).keeps

/-! Level Acquisition -/

theorem judgeRound_keeps (v : Six (BitVec 12)) (r : BitVec 12) (s : State) : Keeps s (judgeRound v r s) := by
  unfold judgeRound
  dsimp only
  split
  · split
    · exact ((keepsLevel _ s).trans (keepsLevel _ _)).trans (returnKind_keeps ..)
    · exact keepsLevel _ s
  · split
    · exact ((keepsLevel _ s).trans (keepsLevel _ _)).trans (raiseKind_keeps ..)
    · exact keepsLevel _ s

theorem takeRound_keeps (v : Six (BitVec 12)) (r : BitVec 12) (s : State) : Keeps s (takeRound v r s) :=
  (keepsLevel _ s).trans (judgeRound_keeps ..)

theorem levelPeriodEnd_keeps (s : State) : Keeps s (levelPeriodEnd s) := (keepsLevel _ s).trans (offerEdges_keeps ..)

theorem followHighHighFloat_keeps (s : State) : Keeps s (followHighHighFloat s) :=
  (keepsLevel _ s).trans (offerEdges_keeps ..)

/-! Station Balance -/

theorem stageVolume_keeps (s : State) : Keeps s (stageVolume s) := by
  unfold stageVolume; split <;> exact keepsBalance _ s

theorem stageHead_keeps (s : State) : Keeps s (stageHead s) := by
  unfold stageHead; split <;> exact keepsBalance _ s

theorem stageFlow_keeps (s : State) : Keeps s (stageFlow s) := keepsPumps _ s

theorem stageInflow_keeps (p : Nat) (s : State) : Keeps s (stageInflow p s) := by
  unfold stageInflow; split <;> exact keepsBalance _ s

theorem stageClass_keeps (p : Nat) (s : State) : Keeps s (stageClass p s) := by
  unfold stageClass
  split
  · exact .refl s
  · dsimp only
    split
    · exact keepsBalance _ s
    · exact (keepsBalance _ s).trans (setFlag_keeps ..)

theorem stageWeir_keeps (w : Ix2) (s : State) : Keeps s (stageWeir w s) := by
  unfold stageWeir; split <;> exact keepsBalance _ s

theorem stageSpill_keeps (p : Nat) (s : State) : Keeps s (stageSpill p s) := by
  unfold stageSpill
  dsimp only
  split
  · exact (keepsBalance _ s).trans (setFlag_keeps ..)
  · exact keepsBalance _ s

theorem balancePeriodEnd_keeps (p : Nat) (s : State) : Keeps s (balancePeriodEnd p s) := by
  unfold balancePeriodEnd
  dsimp only
  have h := ((((stageVolume_keeps s).trans (stageHead_keeps _)).trans (stageFlow_keeps _)).trans
    (stageInflow_keeps p _)).trans (stageClass_keeps p _)
  split
  · exact (((h.trans (wakeLink_keeps true _)).trans (stageWeir_keeps ..)).trans (stageWeir_keeps ..)).trans
      (stageSpill_keeps ..)
  · exact ((h.trans (stageWeir_keeps ..)).trans (stageWeir_keeps ..)).trans (stageSpill_keeps ..)

theorem separationExpires_keeps (w : Ix2) (s : State) : Keeps s (separationExpires w s) :=
  ((keepsBalance _ s).trans (setFlag_keeps ..)).trans (returnKind_keeps ..)

theorem clearTally_keeps (w : Ix2) (s : State) : Keeps s (clearTally w s) := (keepsBalance _ s).trans (setFlag_keeps ..)

/-! Pumps -/

theorem reviewStarts_keeps (p : Ix6) (s : State) : Keeps s (reviewStarts p s) := (reviewStarts_frame p s).keeps

theorem trimAllHistories_keeps (s : State) : Keeps s (trimAllHistories s) := keepsPumps _ s

theorem enterRunOn_keeps (r : Route) (p : Ix6) (s : State) : Keeps s (enterRunOn r p s) :=
  (keepsPump p _ s).trans (offerEdges_keeps ..)

theorem leaveRunOn_keeps (p : Ix6) (s : State) : Keeps s (leaveRunOn p s) :=
  (keepsPump p _ s).trans (returnKind_keeps ..)

theorem addReason_keeps (p : Ix6) (r : PumpReason) (es : List Edge) (s : State) : Keeps s (addReason p r es s) := by
  unfold addReason
  dsimp only
  split
  · exact (((keepsPump p _ s).trans (keepsPump p _ _)).trans (waitNoMore_keeps ..)).trans (offerEdges_keeps ..)
  · exact ((keepsPump p _ s).trans (stopPump_keeps ..)).trans (offerEdges_keeps ..)
  · exact ((keepsPump p _ s).trans (stopPump_keeps ..)).trans (offerEdges_keeps ..)
  · exact (keepsPump p _ s).trans (offerEdges_keeps ..)

theorem lockPump_keeps (p : Ix6) (r : PumpReason) (x : List Byte) (s : State) : Keeps s (lockPump p r x s) :=
  addReason_keeps ..

theorem releaseReasons_keeps (p : Ix6) (s : State) : Keeps s (releaseReasons p s) :=
  (keepsPump p _ s).trans (offerEdges_keeps ..)

theorem pumpNotice_keeps (p : Ix6) (r : PumpReason) (s : State) : Keeps s (pumpNotice p r s) := by
  unfold pumpNotice
  split
  · exact (keepsPump p _ s).trans (releaseReasons_keeps ..)
  · exact .refl s

theorem feedbackPresent_keeps (p : Ix6) (s : State) : Keeps s (feedbackPresent p s) := by
  unfold feedbackPresent
  split
  · exact keepsPump p _ s
  · exact enterRunOn_keeps ..
  · exact (leaveQueue_frame ..).keeps.trans (enterRunOn_keeps ..)
  · split
    · exact enterRunOn_keeps ..
    · exact .refl s
  · exact .refl s

theorem feedbackAbsent_keeps (p : Ix6) (s : State) : Keeps s (feedbackAbsent p s) := by
  unfold feedbackAbsent
  split
  · exact lockPump_keeps ..
  · exact leaveRunOn_keeps ..
  · exact .refl s

theorem pumpInputMoved_keeps (p : Ix6) (i : PumpInput) (s : State) : Keeps s (pumpInputMoved p i s) := by
  cases i
  · unfold pumpInputMoved
    dsimp only
    split
    · exact feedbackPresent_keeps ..
    · exact feedbackAbsent_keeps ..
  · unfold pumpInputMoved thermalMoved
    dsimp only
    split
    · split
      · exact .refl s
      · exact lockPump_keeps ..
    · exact releaseReasons_keeps ..
  · unfold pumpInputMoved sealMoved
    dsimp only
    split
    · exact raiseKind_keeps ..
    · exact returnKind_keeps ..

theorem startWindowExpires_keeps (p : Ix6) (s : State) : Keeps s (startWindowExpires p s) :=
  (keepsPump p _ s).trans (lockPump_keeps ..)

theorem stopWindowExpires_keeps (p : Ix6) (s : State) : Keeps s (stopWindowExpires p s) := by
  unfold stopWindowExpires
  split
  · exact enterRunOn_keeps ..
  · dsimp only
    split
    · exact keepsPump p _ s
    · exact (keepsPump p _ s).trans (keepsPump p _ _)

theorem runDownExpires_keeps (p : Ix6) (s : State) : Keeps s (runDownExpires p s) := by
  unfold runDownExpires
  dsimp only
  split
  · exact (keepsPump p _ s).trans (keepsPump p _ _)
  · exact keepsPump p _ s

theorem moveSelector_keeps (p : Ix6) (sel : Selector) (s : State) : Keeps s (moveSelector p sel s) := by
  unfold moveSelector
  split
  · dsimp only
    split
    · exact (keepsPump p _ s).trans (enterRunOn_keeps ..)
    · exact keepsPump p _ s
  · exact ((keepsPump p _ s).trans (waitNoMore_keeps ..)).trans (offerEdges_keeps ..)

theorem deriveSelector_keeps (p : Ix6) (s : State) : Keeps s (deriveSelector p s) := by
  unfold deriveSelector
  dsimp only
  split
  · exact .refl s
  · exact moveSelector_keeps ..

theorem setInhibit_keeps (p : Ix6) (party : Party) (s : State) : Keeps s (setInhibit p party s) :=
  (keepsPump p _ s).trans (addReason_keeps ..)

theorem clearInhibit_keeps (p : Ix6) (party : Party) (s : State) : Keeps s (clearInhibit p party s) := by
  unfold clearInhibit
  dsimp only
  split
  · exact keepsPump p _ s
  · exact (keepsPump p _ s).trans (returnKind_keeps ..)

theorem clearTownMarks_keeps (s : State) : Keeps s (clearTownMarks s) := keepsPumps _ s

theorem headPeriodEnd_keeps (s : State) : Keeps s (headPeriodEnd s) := keepsPumps _ s

theorem headDelayExpires_keeps (p : Ix6) (s : State) : Keeps s (headDelayExpires p s) := by
  unfold headDelayExpires
  dsimp only
  split
  · exact ((keepsPump p _ s).trans (raiseKind_keeps ..)).trans (stopPump_keeps ..)
  · exact (keepsPump p _ s).trans (raiseKind_keeps ..)

/-! Duty -/

theorem wantedPeriodEnd_keeps (s : State) : Keeps s (wantedPeriodEnd s) := by
  unfold wantedPeriodEnd
  split
  · exact keepsDuty _ s rfl
  · exact ⟨id, id, id, id, id⟩

theorem wantedAtFloat_keeps (f : FloatId) (s : State) : Keeps s (wantedAtFloat f s) := by
  unfold wantedAtFloat
  split
  · exact keepsDuty _ s rfl
  · split
    · exact keepsDuty _ s rfl
    · exact .refl s

theorem beginDrawdown_keeps (d m : Nat) (s : State) : Keeps s (beginDrawdown d m s) := by
  unfold beginDrawdown
  have h := keepsDuty (fun x => { x with drawdown := d, drawdownTimer := seconds (60 * m) }) s rfl
  dsimp only
  split
  · exact h
  · exact h.trans (raiseKind_keeps ..)

theorem Duty.endDrawdown_ladder (d : Duty) : d.endDrawdown.ladder = d.ladder := by
  unfold Duty.endDrawdown; split <;> rfl

theorem onDuty_endDrawdown_keeps (s : State) : Keeps s (s.onDuty Duty.endDrawdown) :=
  keepsDuty _ s (Duty.endDrawdown_ladder _)

theorem endDrawdown_keeps (s : State) : Keeps s (endDrawdown s) :=
  (onDuty_endDrawdown_keeps s).trans (offerEdges_keeps ..)

theorem dropTownControl_keeps (s : State) : Keeps s (dropTownControl s) :=
  (clearTownMarks_keeps s).trans (onDuty_endDrawdown_keeps _)

theorem deriveSource_keeps (s : State) : Keeps s (deriveSource s) := by
  unfold deriveSource
  dsimp only
  split
  · exact .refl s
  · exact ((keepsPower _ s).trans (setFlag_keeps ..)).trans (edges_frame _ (fun s e => offerEdge_frame e s) _ _).keeps

theorem moveBlockedRake_keeps (n : Ix2) (s : State) : Keeps s (moveBlockedRake n s) := by
  unfold moveBlockedRake
  split
  · exact (leaveQueue_frame ..).keeps.trans (joinQueue_frame ..).keeps
  · exact .refl s

theorem beginTransfer_keeps (s : State) : Keeps s (beginTransfer s) := (keepsPower _ s).trans (setFlag_keeps ..)

theorem endTransfer_keeps (s : State) : Keeps s (endTransfer s) :=
  ((keepsPower _ s).trans (setFlag_keeps ..)).trans (deriveSource_keeps _)

theorem powerLineMoved_keeps (l : PowerLine) (s : State) : Keeps s (powerLineMoved l s) := by
  unfold powerLineMoved
  split
  · split
    · split
      · exact .refl s
      · exact beginTransfer_keeps s
    · split
      · exact endTransfer_keeps s
      · exact .refl s
  · split
    · exact .refl s
    · exact deriveSource_keeps s
  · split
    · exact .refl s
    · exact deriveSource_keeps s

/-! Rakes -/

theorem writeCompletion_keeps (n : Ix2) (o : Nat) (r : RakeOutcome) (c : Nat) (s : State) :
    Keeps s (writeCompletion n o r c s) := (writeCompletion_frame n o r c s).keeps
theorem beginOp_keeps (n : Ix2) (op : Operation) (s : State) : Keeps s (beginOp n op s) := (beginOp_frame n op s).keeps
theorem enterIdle_keeps (n : Ix2) (s : State) : Keeps s (enterIdle n s) := (enterIdle_frame n s).keeps
theorem enterHeld_keeps (n : Ix2) (s : State) : Keeps s (enterHeld n s) := (enterHeld_frame n s).keeps
theorem finishPosition_keeps (n : Ix2) (s : State) : Keeps s (finishPosition n s) := (finishPosition_frame n s).keeps
theorem finishHoming_keeps (n : Ix2) (s : State) : Keeps s (finishHoming n s) := (finishHoming_frame n s).keeps
theorem firstStage_keeps (n : Ix2) (s : State) : Keeps s (firstStage n s) := (firstStage_frame n s).keeps
theorem beginLeg_keeps (n : Ix2) (st : RakeState) (d : Dir) (s : State) : Keeps s (beginLeg n st d s) :=
  (beginLeg_frame n st d s).keeps
theorem endReverse_keeps (n : Ix2) (s : State) : Keeps s (endReverse n s) := (endReverse_frame n s).keeps
theorem limitInReverse_keeps (n : Ix2) (b : Bool) (s : State) : Keeps s (limitInReverse n b s) :=
  (limitInReverse_frame n b s).keeps

theorem rest_keeps (n : Ix2) (st : RakeState) (s : State) : Keeps s (s.onScreen n (Screen.rest st)) :=
  (rest_frame n st s).keeps

theorem enterLocked_keeps (n : Ix2) (o : RakeOutcome) (s : State) : Keeps s (enterLocked n o s) := by
  unfold enterLocked
  dsimp only
  split
  · exact (waitNoMore_keeps ..).trans ((writeCompletion_keeps ..).trans (rest_keeps ..))
  · exact (writeCompletion_keeps ..).trans (rest_keeps ..)

theorem lockRake_keeps (n : Ix2) (r : RakeReason) (x : List Byte) (s : State) : Keeps s (lockRake n r x s) := by
  unfold lockRake
  dsimp only
  split
  · exact keepsScreen (offerEdges_keeps ..) fun _ h => h
  · exact keepsScreen ((enterLocked_keeps ..).trans (offerEdges_keeps ..)) fun _ h => h

theorem releaseRake_keeps (n : Ix2) (s : State) : Keeps s (releaseRake n s) := by
  unfold releaseRake
  dsimp only
  split
  · exact keepsScreen ((offerEdges_keeps ..).trans (keepsScreen (beginOp_keeps ..) fun _ h => h)) fun _ h => h
  · exact keepsScreen (offerEdges_keeps ..) fun _ h => h

theorem rakeNotice_keeps (n : Ix2) (r : RakeReason) (s : State) : Keeps s (rakeNotice n r s) := by
  unfold rakeNotice
  split
  · exact keepsScreen (releaseRake_keeps ..) fun _ h => h
  · exact .refl s

theorem supersede_keeps (n : Ix2) (op : Operation) (s : State) : Keeps s (supersede n op s) := by
  unfold supersede
  dsimp only
  split
  · exact (writeCompletion_keeps ..).trans (keepsScreen (keepsScreen (.refl _) fun _ h => h) fun _ h => h)
  · exact (writeCompletion_keeps ..).trans (keepsScreen (firstStage_keeps ..) fun _ h => h)

theorem homeAtOnce_keeps (n : Ix2) (s : State) : Keeps s (homeAtOnce n s) :=
  keepsScreen ((quitQueue_keeps ..).trans (finishHoming_keeps ..)) fun _ h => h

theorem takeRakeCycle_keeps (n : Ix2) (s : State) : Keeps s (takeRakeCycle n s).2 := by
  unfold takeRakeCycle
  dsimp only
  split
  · exact .refl s
  split
  · exact beginOp_keeps ..
  split
  · exact (returnKind_keeps ..).trans (beginOp_keeps ..)
  split
  · split
    · exact .refl s
    · exact keepsScreen (.refl _) fun _ h => h
  · exact (writeCompletion_keeps ..).trans (keepsScreen (.refl _) fun _ h => h)
  · exact supersede_keeps ..

theorem takeRakeHome_keeps (n : Ix2) (s : State) : Keeps s (takeRakeHome n s).2 := by
  unfold takeRakeHome
  dsimp only
  split
  · exact .refl s
  split
  · exact .refl s
  split
  · dsimp only
    split
    · exact (returnKind_keeps ..).trans (homeAtOnce_keeps ..)
    · exact (returnKind_keeps ..).trans (beginOp_keeps ..)
  split
  · exact .refl s
  · split
    · exact (writeCompletion_keeps ..).trans (keepsScreen (homeAtOnce_keeps ..) fun _ h => h)
    · exact supersede_keeps ..

theorem takeRakePosition_keeps (n : Ix2) (p : Nat) (s : State) : Keeps s (takeRakePosition n p s).2 := by
  unfold takeRakePosition
  dsimp only
  split
  · exact .refl s
  split
  · exact .refl s
  split
  · split
    · exact keepsScreen (finishPosition_keeps ..) fun _ h => h
    · exact beginOp_keeps ..
  · exact supersede_keeps ..

theorem takeRakeFinish_keeps (n : Ix2) (k : Nat) (s : State) : Keeps s (takeRakeFinish n k s).2 := by
  unfold takeRakeFinish
  dsimp only
  split
  · exact .refl s
  split
  · exact .refl s
  split
  · exact beginOp_keeps ..
  split
  · exact keepsScreen (.refl _) fun _ h => h
  · exact (writeCompletion_keeps ..).trans (keepsScreen (.refl _) fun _ h => h)
  · exact supersede_keeps ..

theorem formDifferential_keeps (n : Ix2) (s : State) : Keeps s (formDifferential n s) := by
  unfold formDifferential
  dsimp only
  cases n <;> dsimp only <;> split <;> exact keepsScreen (.refl _) fun _ h => h

theorem testBlocked_keeps (n : Ix2) (s : State) : Keeps s (testBlocked n s) := by
  unfold testBlocked
  dsimp only
  split
  · exact keepsScreen (moveBlockedRake_keeps ..) fun _ h => h
  · exact keepsScreen (.refl _) fun _ h => h

theorem testTriggers_keeps (n : Ix2) (s : State) : Keeps s (testTriggers n s) := by
  unfold testTriggers
  split
  · split
    · exact beginOp_keeps ..
    · exact keepsScreen (.refl _) fun _ h => h
  · exact .refl s

theorem formScreens_keeps (s : State) : Keeps s (formScreens s) :=
  keeps_foldl _ (fun s n => (formDifferential_keeps n s).trans (testBlocked_keeps n _)) _ s

theorem testAllTriggers_keeps (s : State) : Keeps s (testAllTriggers s) :=
  keeps_foldl _ (fun s n => testTriggers_keeps n s) _ s


theorem afterPulse_keeps (n : Ix2) (s : State) : Keeps s (afterPulse n s) := by
  unfold afterPulse
  dsimp only
  split
  · split
    · exact keepsScreen (finishPosition_keeps ..) fun _ h => h
    · exact keepsScreen (.refl _) fun _ h => h
  · exact keepsScreen (.refl _) fun _ h => h

theorem takePulse_keeps (n : Ix2) (s : State) : Keeps s (takePulse n s) := by
  unfold takePulse
  dsimp only
  split
  · split
    · exact keepsScreen (lockRake_keeps ..) fun _ h => h
    · exact keepsScreen (afterPulse_keeps ..) fun _ h => h
  · split
    · split
      · exact keepsScreen (lockRake_keeps ..) fun _ h => h
      · exact keepsScreen (afterPulse_keeps ..) fun _ h => h
    · exact .refl s

theorem homeMade_keeps (n : Ix2) (s : State) : Keeps s (homeMade n s) := by
  unfold homeMade
  split
  · exact finishHoming_keeps ..
  · exact (enterDischarging_frame ..).keeps
  · split
    · exact keepsScreen (finishPosition_keeps ..) fun _ h => h
    · exact .refl s
  · exact limitInReverse_keeps ..
  · exact .refl s

theorem bottomMade_keeps (n : Ix2) (s : State) : Keeps s (bottomMade n s) := by
  unfold bottomMade
  split
  · exact (enterGripping_frame ..).keeps
  · split
    · exact finishPosition_keeps ..
    · exact .refl s
  · exact limitInReverse_keeps ..
  · exact .refl s

theorem rakeInputMoved_keeps (n : Ix2) (i : RakeInput) (s : State) : Keeps s (rakeInputMoved n i s) := by
  unfold rakeInputMoved
  dsimp only
  split
  · split
    · exact homeMade_keeps ..
    · exact .refl s
  · split
    · exact bottomMade_keeps ..
    · exact .refl s
  · split
    · split
      · exact .refl s
      · exact lockRake_keeps ..
    · exact releaseRake_keeps ..

theorem gripExpires_keeps (n : Ix2) (s : State) : Keeps s (gripExpires n s) :=
  keepsScreen (beginLeg_keeps ..) fun _ h => h

theorem dischargeExpires_keeps (n : Ix2) (s : State) : Keeps s (dischargeExpires n s) := by
  unfold dischargeExpires
  dsimp only
  split
  · exact keepsScreen ((writeCompletion_keeps ..).trans (enterHeld_keeps ..)) fun _ h => h
  · exact keepsScreen (keepsScreen (beginLeg_keeps ..) fun _ h => h) fun _ h => h
  · exact keepsScreen ((writeCompletion_keeps ..).trans (enterIdle_keeps ..)) fun _ h => h

theorem jamExpires_keeps (n : Ix2) (s : State) : Keeps s (jamExpires n s) := by
  unfold jamExpires
  dsimp only
  split
  · exact keepsScreen (lockRake_keeps ..) fun a _ => drive_exclusive none a
  · split
    · exact keepsScreen (keepsScreen (lockRake_keeps ..) fun _ h => h) fun a _ => drive_exclusive none a
    · exact keepsScreen (keepsScreen (keepsScreen (enterReversing_frame ..).keeps fun _ h => h) fun _ h => h)
        fun a _ => drive_exclusive none a

end Sys2Proof.Machine
end

