-- ==== Sys2Proof/Laws/KeepsPorts.lean ====
section
/-!
SUPPORT. What the operations of the two ports, the settings store and the clock keep, in the sense of Keeps.
-/

namespace Sys2Proof.Machine

/-! Acknowledgement -/

theorem releaseProtocol_keeps (s : State) : Keeps s (releaseProtocol s) :=
  (keepsLink (fun l => { l with protocolCause := false }) s id).trans (returnKind_keeps ..)

theorem linkNotice_keeps (s : State) : Keeps s (linkNotice s) := by
  unfold linkNotice
  split
  · exact (keepsLink (fun l => { l with protocolAck := true }) s id).trans (releaseProtocol_keeps _)
  · exact .refl s

theorem sendNotice_keeps (k : Key) (s : State) : Keeps s (sendNotice k s) := by
  unfold sendNotice
  split
  · split
    · exact pumpNotice_keeps ..
    · exact .refl s
  · split
    · exact rakeNotice_keeps ..
    · exact .refl s
  · split
    · exact linkNotice_keeps s
    · exact .refl s

theorem ackRecord_keeps (i : Nat) (party : Party) (s : State) : Keeps s (ackRecord i party s).2 := by
  unfold ackRecord
  split
  · exact .refl s
  · split
    · dsimp only
      split
      · exact (changeRecord_keeps ..).trans (sendNotice_keeps ..)
      · exact changeRecord_keeps ..
    · dsimp only
      split
      · exact changeRecord_keeps ..
      · exact (changeRecord_keeps ..).trans (serve_keeps _)
    · exact .refl s

theorem takeAcknowledge_keeps (i g : Nat) (party : Party) (s : State) : Keeps s (takeAcknowledge i g party s).2 := by
  unfold takeAcknowledge
  split
  · exact ackRecord_keeps ..
  · exact .refl s

theorem takeRetire_keeps (i g : Nat) (s : State) : Keeps s (takeRetire i g s).2 := by
  unfold takeRetire
  split
  · split
    · exact (retireSlot_frame ..).keeps
    · exact .refl s
  · exact .refl s

theorem ackNext_keeps (a : Nat × State) (h : Nat × Nat) : Keeps a.2 (ackNext a h).2 := by
  unfold ackNext
  split
  · exact ackRecord_keeps ..
  · exact .refl _

theorem ackFold_keeps (l : List (Nat × Nat)) (a : Nat × State) : Keeps a.2 (l.foldl ackNext a).2 := by
  induction l generalizing a with
  | nil => exact .refl _
  | cons h l ih => exact (ackNext_keeps a h).trans (ih _)

theorem takeAckAll_keeps (m : Severity) (c : Option SourceClass) (sh : Bool) (s : State) :
    Keeps s (takeAckAll m c sh s).2.2 := by
  unfold takeAckAll
  split
  · exact .refl s
  · exact ackFold_keeps _ (0, s)

theorem takeRetireDormant_keeps (s : State) : Keeps s (takeRetireDormant s).2 := by
  have h := keeps_foldl (fun s i => removeRecord i s) (fun s i => (removeRecord_frame i s).keeps) (dormantSlots s.table) s
  unfold takeRetireDormant
  dsimp only
  generalize (dormantSlots s.table).foldl (fun s i => removeRecord i s) s = u at *
  have k := keepsTable (fun t => { t with raisedSinceClear := 0, lastClear := s.clock.station }) u rfl
    (Nat.le_max_right _ _)
  exact ((h.trans k).trans (setFlag_keeps ..)).trans (serve_keeps _)

theorem ackRaised_keeps (ks : List Key) (s : State) : Keeps s (ackRaised ks s) := by
  refine keeps_foldl _ (fun s i => ?_) _ s
  split
  · split
    · exact changeRecord_keeps ..
    · exact .refl s
  · exact .refl s

theorem resetPump_keeps (p : Ix6) (s : State) : Keeps s (resetPump p s).2 := by
  unfold resetPump
  dsimp only
  split
  · exact .refl s
  · dsimp only
    refine Keeps.trans ?_ (releaseReasons_keeps p _)
    refine Keeps.trans ?_ (ackRaised_keeps _ _)
    exact keepsPump p _ s

theorem resetRake_keeps (n : Ix2) (s : State) : Keeps s (resetRake n s).2 := by
  unfold resetRake
  dsimp only
  split
  · exact .refl s
  · dsimp only
    refine Keeps.trans ?_ (releaseRake_keeps n _)
    refine Keeps.trans ?_ (ackRaised_keeps _ _)
    exact keepsScreen (.refl _) fun _ h => h

theorem takeReset_keeps (c n : Nat) (s : State) : Keeps s (takeReset c n s).2 := by
  unfold takeReset
  split
  · exact resetPump_keeps ..
  · exact resetRake_keeps ..
  · exact .refl s

theorem takeSilence_keeps (s : State) : Keeps s (takeSilence s).2 := by
  unfold takeSilence
  split
  · exact ⟨id, id, id, id, id⟩
  · exact .refl s

/-! Town Link -/

theorem setStation_keeps (t : Stamp) (s : State) : Keeps s (setStation t s) := keepsClock _ s

theorem protocolFault_keeps (r : Nat) (b : Byte) (s : State) : Keeps s (protocolFault r b s) :=
  (keepsLink (fun l => { l with protocolCause := true, protocolAck := l.protocolAck && l.protocolCause }) s id).trans
    (raiseKind_keeps ..)

theorem enterJoining_keeps (s : State) : Keeps s (enterJoining s) :=
  keepsLink _ s fun _ => .none rfl (by simp)

theorem enterLost_keeps (s : State) : Keeps s (enterLost s) := by
  have h := keepsLink (fun l => { l with
    state := .lost, credits := 0, grant := none, period := none, requests := [], statusOwed := false, wakesOwed := 0
    heartbeatTimer := none, statusTimer := none, lossTimer := seconds 10 }) s (fun _ => .none rfl (by simp))
  exact (h.trans (setFlag_keeps .link _)).trans (dropTownControl_keeps _)

theorem enterOffline_keeps (s : State) : Keeps s (enterOffline s) :=
  (keepsLink (fun l => { l with
    state := .offline, credits := 0, grant := none, period := none, requests := [], offersOwed := 0, wakesOwed := 0
    statusOwed := false, lossTimer := none, offerTimer := none, heartbeatTimer := none, statusTimer := none
    lostCause := false }) s (fun _ => .none rfl (by simp))).trans (setFlag_keeps .link _)

theorem commitLink_keeps (s : State) : Keeps s (commitLink s) := by
  unfold commitLink
  split
  · split
    · exact (enterJoining_keeps s).trans (setFlag_keeps ..)
    · split
      · exact .refl s
      · exact keepsLink _ s id
    · exact .refl s
  · split
    · exact .refl s
    · split
      · exact (enterLost_keeps s).trans (enterOffline_keeps _)
      · exact enterOffline_keeps s

theorem heartbeatExpires_keeps (s : State) : Keeps s (heartbeatExpires s) :=
  ((enterLost_keeps s).trans (keepsLink _ _ id)).trans (offerEdges_keeps ..)

theorem statusExpires_keeps (s : State) : Keeps s (statusExpires s) := ⟨id, id, id, id, id⟩

theorem join_keeps (town : Stamp) (g p : Nat) (s : State) : Keeps s (join town g p s) := by
  have h0 := keepsLink (fun l => { l with
      state := .online, offerTimer := none, offersOwed := 0, grant := some g, period := some p, credits := g }) s
    fun h => .joined (.inl rfl) (Nat.le_refl _) h.2.2
  have h1 := h0.trans (setFlag_keeps .link _)
  unfold join
  dsimp only
  generalize setFlag .link (s.onLink fun l => { l with
      state := .online, offerTimer := none, offersOwed := 0, grant := some g, period := some p, credits := g }) = s1 at *
  have h2 : Keeps s (clearNoticeMarks (if s.running.acceptTownTime then setStation town s1 else s1)) := by
    refine h1.trans ?_
    split
    · exact (setStation_keeps ..).trans (clearNoticeMarks_frame _).keeps
    · exact (clearNoticeMarks_frame _).keeps
  generalize clearNoticeMarks (if s.running.acceptTownTime then setStation town s1 else s1) = s2 at *
  have h3 : Keeps s (if s2.link.protocolCause then releaseProtocol s2 else s2) := by
    refine h2.trans ?_
    split
    · exact releaseProtocol_keeps _
    · exact .refl _
  generalize (if s2.link.protocolCause then releaseProtocol s2 else s2) = s3 at *
  split
  · exact ((h3.trans (keepsLink _ _ id)).trans (returnKind_keeps ..)).trans (keepsLink _ _ id)
  · exact h3.trans (keepsLink _ _ id)

theorem takeAccept_keeps (p : List Byte) (s : State) : Keeps s (takeAccept p s) := by
  unfold takeAccept
  split
  · exact join_keeps ..
  · exact protocolFault_keeps ..

/-- A HEARTBEAT keeps the credits within the grant (R179, R181), in the states that take one. -/
theorem takeHeartbeat_keeps (p : List Byte) (s : State) (hs : s.link.state = .online ∨ s.link.state = .quiet) :
    Keeps s (takeHeartbeat p s) := by
  unfold takeHeartbeat
  split
  · rename_i back
    dsimp only
    have h := keepsLink (fun l => { l with credits := min (s.link.grant.getD 0) (s.link.credits + back.toNat) }) s
      fun h => .joined hs (Nat.min_le_left _ _) h.2.2
    split
    · exact (h.trans (protocolFault_keeps ..)).trans (keepsLink _ _ id)
    · exact h.trans (keepsLink _ _ id)
  · exact protocolFault_keeps ..

theorem enterQuiet_keeps (s : State) : Keeps s (enterQuiet s) := by
  refine Keeps.trans (t := State.onLink _ s) (keepsLink _ s fun h => ?_) (setFlag_keeps ..)
  exact .joined (.inr rfl) h.1 h.2.2

/-! Requests -/

theorem takeTally_keeps (w : Nat) (s : State) : Keeps s (takeTally w s).2 := by
  unfold takeTally
  split
  · exact clearTally_keeps ..
  · exact .refl s

theorem takeInhibit_keeps (p on : Nat) (s : State) : Keeps s (takeInhibit p on s).2 := by
  unfold takeInhibit
  split
  · split
    · dsimp only
      split
      · exact .refl s
      · exact setInhibit_keeps ..
    · split
      · dsimp only
        split
        · exact clearInhibit_keeps ..
        · exact .refl s
      · exact .refl s
  · exact .refl s

theorem takeDrawdown_keeps (o m : Nat) (s : State) : Keeps s (takeDrawdown o m s).2 := by
  unfold takeDrawdown
  split
  · exact .refl s
  · split
    · exact endDrawdown_keeps s
    · exact beginDrawdown_keeps ..

theorem takeQuietAsk_keeps (s : State) : Keeps s (takeQuietAsk s).2 := by
  unfold takeQuietAsk
  split
  · exact .refl s
  · exact enterQuiet_keeps s

theorem runRequest_keeps (k : Nat) (p : List Byte) (s : State) : Keeps s (runRequest k p s).2 := by
  unfold runRequest
  split
  · exact .refl s
  · exact .refl s
  · exact .refl s
  · exact takeAcknowledge_keeps ..
  · exact takeRetire_keeps ..
  · exact .refl s
  · exact takeTally_keeps ..
  · exact takeInhibit_keeps ..
  · exact takeDrawdown_keeps ..
  · exact takeQuietAsk_keeps s

theorem answerRequest_keeps (k : Byte) (p : List Byte) (s : State) : Keeps s (answerRequest k p s).2 := by
  unfold answerRequest
  split
  · exact .refl s
  · split
    · exact .refl s
    · exact runRequest_keeps ..

/-! The requests outstanding while one is answered (R183) -/

theorem CommonFrame.requests {s t : State} (h : CommonFrame s t) : t.link.requests = s.link.requests := by rw [h.link]

theorem releaseReasons_requests (p : Ix6) (s : State) : (releaseReasons p s).link.requests = s.link.requests :=
  (offerEdges_frame _ _).requests

theorem releaseRake_requests (n : Ix2) (s : State) : (releaseRake n s).link.requests = s.link.requests := by
  unfold releaseRake
  dsimp only
  split
  · exact (beginOp_frame ..).requests.trans (offerEdges_frame ..).requests
  · exact (offerEdges_frame ..).requests

theorem sendNotice_requests (k : Key) (s : State) : (sendNotice k s).link.requests = s.link.requests := by
  unfold sendNotice
  split
  · split
    · unfold pumpNotice
      split
      · exact releaseReasons_requests ..
      · rfl
    · rfl
  · split
    · unfold rakeNotice
      split
      · exact releaseRake_requests ..
      · rfl
    · rfl
  · split
    · unfold linkNotice releaseProtocol
      split
      · exact (returnKind_frame ..).requests
      · rfl
    · rfl

theorem takeAcknowledge_requests (i g : Nat) (party : Party) (s : State) :
    (takeAcknowledge i g party s).2.link.requests = s.link.requests := by
  unfold takeAcknowledge
  split
  · unfold ackRecord
    split
    · rfl
    · split
      · dsimp only
        split
        · exact (sendNotice_requests ..).trans (changeRecord_frame ..).requests
        · exact (changeRecord_frame ..).requests
      · dsimp only
        split
        · exact (changeRecord_frame ..).requests
        · exact (serve_frame _).requests.trans (changeRecord_frame ..).requests
      · rfl
  · rfl

theorem addReason_requests (p : Ix6) (r : PumpReason) (es : List Edge) (s : State) :
    (addReason p r es s).link.requests = s.link.requests := by
  unfold addReason
  dsimp only
  split
  · exact (offerEdges_frame ..).requests.trans (waitNoMore_frame ..).requests
  · exact (offerEdges_frame ..).requests.trans (stopPump_frame ..).requests
  · exact (offerEdges_frame ..).requests.trans (stopPump_frame ..).requests
  · exact (offerEdges_frame ..).requests

theorem takeInhibit_requests (p on : Nat) (s : State) : (takeInhibit p on s).2.link.requests = s.link.requests := by
  unfold takeInhibit
  split
  · split
    · dsimp only
      split
      · rfl
      · exact addReason_requests ..
    · split
      · dsimp only
        split
        · unfold clearInhibit
          dsimp only
          split
          · rfl
          · exact (returnKind_frame ..).requests
        · rfl
      · rfl
  · rfl

theorem takeDrawdown_requests (o m : Nat) (s : State) : (takeDrawdown o m s).2.link.requests = s.link.requests := by
  unfold takeDrawdown
  split
  · rfl
  · split
    · exact (offerEdges_frame ..).requests
    · unfold beginDrawdown
      dsimp only
      split
      · rfl
      · exact (raiseKind_frame ..).requests

/-- Answering a request leaves the request slots as they are. -/
theorem answerRequest_requests (k : Byte) (p : List Byte) (s : State) :
    (answerRequest k p s).2.link.requests = s.link.requests := by
  unfold answerRequest
  split
  · rfl
  split
  · rfl
  unfold runRequest
  split
  · rfl
  · rfl
  · rfl
  · exact takeAcknowledge_requests ..
  · unfold takeRetire bare
    split
    · split
      · exact (retireSlot_frame ..).requests
      · rfl
    · rfl
  · rfl
  · unfold takeTally
    split
    · rfl
    · rfl
  · exact takeInhibit_requests ..
  · exact takeDrawdown_requests ..
  · unfold takeQuietAsk
    split
    · rfl
    · rfl

/-- At most four requests are outstanding (R181, R183). -/
theorem takeAdmitted_keeps (k tag : Byte) (p : List Byte) (s : State) : Keeps s (takeAdmitted k tag p s) := by
  unfold takeAdmitted
  split
  · exact protocolFault_keeps ..
  split
  · exact protocolFault_keeps ..
  · rename_i h _
    have h1 := answerRequest_keeps k p s
    have h2 := answerRequest_requests k p s
    unfold respond
    refine ⟨h1.ladder, h1.motors, h1.table, h1.attn, fun c => ?_⟩
    obtain ⟨a, b, _⟩ := h1.credits c
    refine ⟨a, b, ?_⟩
    simp only [State.onLink_link, List.length_append, List.length_singleton, h2]
    omega

theorem takeRequest_keeps (k tag : Byte) (p : List Byte) (s : State) : Keeps s (takeRequest k tag p s) :=
  (wakeLink_keeps ..).trans (takeAdmitted_keeps ..)

theorem takeFrame_keeps (k tag : Byte) (p : List Byte) (s : State) : Keeps s (takeFrame k tag p s) := by
  unfold takeFrame
  have hj : (s.link.state = .online ∨ s.link.state = .quiet) → Keeps s (joinedArrival k tag p s) := by
    intro hs
    unfold joinedArrival
    split
    · exact .refl s
    · exact takeHeartbeat_keeps p s hs
    · split
      · exact wakeLink_keeps ..
      · exact .refl s
    · exact takeRequest_keeps ..
  split
  · split
    · exact takeAccept_keeps ..
    · exact .refl s
  · exact hj (.inl ‹_›)
  · exact hj (.inr ‹_›)
  · exact .refl s
  · exact .refl s

theorem hunt_keeps (s : State) : Keeps s (hunt s) := keepsLink (fun l => { l with assembly := none, interByte := none }) s id

theorem arrive_keeps (k tag : Byte) (p : List Byte) (s : State) : Keeps s (arrive k tag p s) := by
  unfold arrive
  split
  · exact .refl s
  · exact ((hunt_keeps s).trans (takeFrame_keeps ..)).trans (conclude_keeps _)

theorem badFrame_keeps (s : State) : Keeps s (badFrame s) :=
  (hunt_keeps s).trans (keepsLink (fun l => { l with badFrames := saturate max16 (l.badFrames + 1) }) _ id)

theorem keepBytes_keeps (bs : List Byte) (s : State) : Keeps s (keepBytes bs s) :=
  keepsLink (fun l => { l with assembly := some bs, interByte := some 5 }) s id

theorem receiveByte_keeps (b : Byte) (s : State) : Keeps s (receiveByte b s) := by
  unfold receiveByte
  split
  · exact .refl s
  split
  · split
    · exact keepBytes_keeps ..
    · exact .refl s
  · unfold takeByte
    split
    · exact .refl s
    · split
      · exact badFrame_keeps s
      · split
        · split
          · exact arrive_keeps ..
          · exact badFrame_keeps s
        · exact keepBytes_keeps ..

/-! Settings Store -/

theorem clampPosition_keeps (n : Ix2) (s : State) : Keeps s (clampPosition n s) :=
  keepsScreen (.refl _) fun _ h => h

theorem commitChanges_keeps (es : List Edge) (s : State) : Keeps s (commitChanges es s) :=
  (makeChanges_frame ..).keeps

theorem applyCommit_keeps (s : State) : Keeps s (applyCommit s) := by
  have h1 := keepsStore (fun st => { st with running := st.staging, writing := some 25 }) s
  unfold applyCommit
  dsimp only
  generalize s.onStore (fun st => { st with running := st.staging, writing := some 25 }) = s1 at *
  have h2 : Keeps s (if tableMoved s.store.running s.store.staging then s1.onBalance fun b => { b with vPrev := none }
      else s1) := by
    refine h1.trans ?_
    split
    · exact keepsBalance _ _
    · exact .refl _
  exact (((((h2.trans (trimAllHistories_keeps _)).trans (clampPosition_keeps ..)).trans (clampPosition_keeps ..)).trans
    (commitLink_keeps _)).trans (commitChanges_keeps ..)).trans (setFlag_keeps ..)

theorem answerCommit_keeps (c : ReplyCode) (s : State) : Keeps s (answerCommit c s) := by
  unfold answerCommit
  split
  · exact keepsPort (fun p => { p with phase := .result [byte c.code] }) s id
  · exact .refl s

theorem stopWrite_keeps (s : State) : Keeps s (stopWrite s) := (keepsStore _ s).trans (setFlag_keeps ..)

theorem raiseWriteFail_keeps (x : Byte) (s : State) : Keeps s (raiseWriteFail x s) :=
  (keepsStore _ s).trans (raiseKind_keeps ..)

theorem endWrite_keeps (e : WriteEnd) (s : State) : Keeps s (endWrite e s) := by
  cases e
  · exact (((stopWrite_keeps s).trans (keepsStore _ _)).trans (offerEdges_keeps ..)).trans (answerCommit_keeps ..)
  · exact ((stopWrite_keeps s).trans (raiseWriteFail_keeps ..)).trans (answerCommit_keeps ..)
  · exact ((stopWrite_keeps s).trans (raiseWriteFail_keeps ..)).trans (answerCommit_keeps ..)

end Sys2Proof.Machine
end

