-- ==== Sys2Proof/Laws/KeepsCommands.lean ====
section
/-!
SUPPORT. What the panel port's answers, commands and strobes, the period end, the cold start and the tick keep, in the
sense of Keeps.
-/

namespace Sys2Proof.Machine

/-! Answers -/

theorem reply_keeps (c : ReplyCode) (bs : List Byte) (s : State) : Keeps s (reply c bs s) :=
  keepsPort (fun p => { p with phase := .result (byte c.code :: bs) }) s id

theorem settleReply_keeps (r : ReplyCode × State) : Keeps r.2 (settleReply r) :=
  (reply_keeps ..).trans (conclude_keeps _)

/-! The record stream -/

theorem endStream_keeps (c : ReplyCode) (d r : Nat) (s : State) : Keeps s (endStream c d r s) :=
  Keeps.trans (keepsPort (fun p => { p with window := none }) s id) (reply_keeps ..)

theorem offerStream_keeps (st : Stream) (s : State) : Keeps s (offerStream st s) :=
  keepsPort (fun p => { p with phase := .streaming st, window := some 2 }) s id

theorem seekRecord_keeps (st : Stream) (s : State) : Keeps s (seekRecord st s) := by
  unfold seekRecord
  split
  · exact offerStream_keeps ..
  · exact endStream_keeps ..

theorem afterRecord_keeps (tc : Bool) (st : Stream) (s : State) : Keeps s (afterRecord tc st s) := by
  unfold afterRecord
  dsimp only
  split
  · exact endStream_keeps ..
  · split
    · exact endStream_keeps ..
    · exact seekRecord_keeps ..

theorem takeStreamByte_keeps (tc : Bool) (st : Stream) (s : State) : Keeps s (takeStreamByte tc st s) := by
  unfold takeStreamByte
  split
  · exact .refl s
  · exact afterRecord_keeps ..
  · split
    · exact endStream_keeps ..
    · exact offerStream_keeps ..

/-! Port reset -/

theorem discardStaging_keeps (s : State) : Keeps s (discardStaging s) := keepsStore (fun st => { st with staging := st.running }) s

theorem portResets_keeps (s : State) : Keeps s (portResets s) :=
  ⟨id, id, id, fun _ => rfl, id⟩

/-! Commands -/

theorem cmdReadConditions_keeps (a b c d e f : Nat) (s : State) : Keeps s (cmdReadConditions a b c d e f s) := by
  unfold cmdReadConditions
  split
  · split
    · exact seekRecord_keeps ..
    · exact reply_keeps ..
  · exact reply_keeps ..

theorem cmdReadAttention_keeps (s : State) : Keeps s (cmdReadAttention s) :=
  ⟨id, id, id, fun _ => rfl, id⟩

theorem cmdSetEnables_keeps (b : Byte) (s : State) : Keeps s (cmdSetEnables b s) := by
  unfold cmdSetEnables
  split
  · exact ⟨id, id, id, fun _ => rfl, id⟩
  · exact reply_keeps ..

theorem cmdInhibit_keeps (p : Nat) (s : State) : Keeps s (cmdInhibit p s) := by
  unfold cmdInhibit
  split
  · split
    · exact reply_keeps ..
    · exact (setInhibit_keeps ..).trans (settleReply_keeps (.done, _))
  · exact reply_keeps ..

theorem cmdRelease_keeps (p : Nat) (s : State) : Keeps s (cmdRelease p s) := by
  unfold cmdRelease
  split
  · split
    · exact (clearInhibit_keeps ..).trans (settleReply_keeps (.done, _))
    · exact reply_keeps ..
  · exact reply_keeps ..

/-- A list no longer than one without repeats that it includes is a permutation of it. -/
theorem perm_of_includes {l m : List Ix6} (hn : m.Nodup) (hi : ∀ a ∈ m, a ∈ l) (hl : l.length ≤ m.length) :
    l.Perm m := by
  induction m generalizing l with
  | nil =>
    have e : l = [] := List.length_eq_zero_iff.mp (by simpa using hl)
    rw [e]
  | cons a m ih =>
    have ha : a ∈ l := hi a List.mem_cons_self
    refine (List.perm_cons_erase ha).trans ((ih (List.nodup_cons.mp hn).2 (fun b hb => ?_) ?_).cons a)
    · exact (List.mem_erase_of_ne fun e : b = a => (List.nodup_cons.mp hn).1 (e ▸ hb)).mpr (hi b (List.mem_cons_of_mem _ hb))
    · rw [List.length_erase_of_mem ha]; simp only [List.length_cons] at hl; omega

/-- Six numbers that spell a ladder spell a permutation of the pumps (R49, R50). -/
theorem ladderOf_ok {ns : List Nat} {l : List Ix6} (h : ladderOf? ns = some l) : LadderOk l := by
  unfold ladderOf? at h
  dsimp only at h
  split at h
  · rename_i hc
    cases h
    simp only [Bool.and_eq_true, decide_eq_true_eq, List.all_eq_true, List.contains_iff_mem] at hc
    obtain ⟨hl, hm⟩ := hc
    exact perm_of_includes (by decide) hm (by rw [hl]; decide)
  · cases h

theorem cmdSetOrder_keeps (ns : List Nat) (s : State) : Keeps s (cmdSetOrder ns s) := by
  unfold cmdSetOrder
  split
  · rename_i l h
    split
    · exact reply_keeps ..
    · have k : Keeps s (s.onDuty fun d => { d with ladder := l }) := ⟨fun _ => ladderOf_ok h, id, id, id, id⟩
      exact k.trans (settleReply_keeps (.done, _))
  · exact reply_keeps ..

theorem cmdLoadTotals_keeps (p r n : Nat) (s : State) : Keeps s (cmdLoadTotals p r n s) := by
  unfold cmdLoadTotals
  split
  · split
    · exact (keepsPump _ _ s).trans (reply_keeps ..)
    · exact reply_keeps ..
  · exact reply_keeps ..

theorem cmdSense_keeps (n : Nat) (s : State) : Keeps s (cmdSense n s) := by
  unfold cmdSense
  split
  · split
    · exact keepsScreen (reply_keeps ..) fun _ h => h
    · exact reply_keeps ..
  · exact reply_keeps ..

theorem cmdAckAll_keeps (a b c : Nat) (s : State) : Keeps s (cmdAckAll a b c s) := by
  unfold cmdAckAll
  split
  · split
    · exact (takeAckAll_keeps ..).trans ((reply_keeps ..).trans (conclude_keeps _))
    · exact reply_keeps ..
  · exact reply_keeps ..

theorem cmdRetireDormant_keeps (s : State) : Keeps s (cmdRetireDormant s) :=
  (takeRetireDormant_keeps s).trans ((reply_keeps ..).trans (conclude_keeps _))

theorem shelveSlot_keeps (i m : Nat) (s : State) : Keeps s (shelveSlot i m s) := by
  unfold shelveSlot
  split
  · exact .refl s
  · dsimp only
    split
    · exact keepsTable _ s (by simp) (Nat.le_max_right _ _)
    · exact changeRecord_keeps ..

theorem cmdShelve_keeps (a b c : Nat) (s : State) : Keeps s (cmdShelve a b c s) := by
  unfold cmdShelve
  split
  · exact reply_keeps ..
  · split
    · split
      · exact (shelveSlot_keeps ..).trans (settleReply_keeps (.done, _))
      · exact reply_keeps ..
    · exact reply_keeps ..

theorem cmdUnshelve_keeps (a b : Nat) (s : State) : Keeps s (cmdUnshelve a b s) := by
  unfold cmdUnshelve
  split
  · exact reply_keeps ..
  · split
    · exact (unshelveSlot_frame ..).keeps.trans (settleReply_keeps (.done, _))
    · exact reply_keeps ..

theorem takePost_keeps (c : Nat) (sev : Severity) (x : List Byte) (s : State) : Keeps s (takePost c sev x s).2 := by
  unfold takePost
  dsimp only
  have h := (countRaise_frame s).keeps
  split
  · exact h.trans (raiseSeated_frame ..).keeps
  · split
    · exact h.trans (seat_frame ..).keeps
    · exact h.trans (countSuppression_frame ..).keeps

theorem cmdPost_keeps (a b c : Nat) (x : List Byte) (s : State) : Keeps s (cmdPost a b c x s) := by
  unfold cmdPost
  split
  · split
    · exact (takePost_keeps ..).trans ((reply_keeps ..).trans (conclude_keeps _))
    · exact reply_keeps ..
  · exact reply_keeps ..

theorem takeReturn_keeps (c : Nat) (s : State) : Keeps s (takeReturn c s).2 := by
  unfold takeReturn
  dsimp only
  split
  · split
    · exact returnKey_keeps ..
    · exact .refl s
  · exact .refl s

theorem cmdLoadSettings_keeps (a b c : Nat) (s : State) : Keeps s (cmdLoadSettings a b c s) := by
  unfold cmdLoadSettings
  split
  · exact (keepsStore _ s).trans (reply_keeps ..)
  · exact reply_keeps ..

theorem cmdCommit_keeps (s : State) : Keeps s (cmdCommit s) := by
  unfold cmdCommit
  split
  · exact reply_keeps ..
  · split
    · exact (setFlag_keeps ..).trans (reply_keeps ..)
    · have h := applyCommit_keeps s
      generalize applyCommit s = u at *
      exact (h.trans (keepsPort (fun p => { p with phase := .executing }) u id)).trans (conclude_keeps _)

theorem cmdSetClock_keeps (a b : Nat) (s : State) : Keeps s (cmdSetClock a b s) := by
  unfold cmdSetClock
  split
  · exact (setStation_keeps ..).trans (reply_keeps ..)
  · exact reply_keeps ..

/-- A panel command, whatever its code and its parameters. -/
theorem runCommand_keeps (code : Nat) (p : List Byte) (s : State) : Keeps s (runCommand code p s) := by
  unfold runCommand
  split
  · exact reply_keeps ..
  · exact reply_keeps ..
  · exact reply_keeps ..
  · unfold cmdReadPump; split <;> exact reply_keeps ..
  · exact cmdInhibit_keeps ..
  · exact cmdRelease_keeps ..
  · exact (takeReset_keeps ..).trans (settleReply_keeps _)
  · exact cmdSetOrder_keeps ..
  · exact cmdLoadTotals_keeps ..
  · unfold cmdReadScreen; split <;> exact reply_keeps ..
  · unfold cmdRakeCycle; split
    · exact (takeRakeCycle_keeps ..).trans (settleReply_keeps _)
    · exact reply_keeps ..
  · unfold cmdRakeHome; split
    · exact (takeRakeHome_keeps ..).trans (settleReply_keeps _)
    · exact reply_keeps ..
  · unfold cmdRakePosition; split
    · exact (takeRakePosition_keeps ..).trans (settleReply_keeps _)
    · exact reply_keeps ..
  · unfold cmdRakeFinish; split
    · exact (takeRakeFinish_keeps ..).trans (settleReply_keeps _)
    · exact reply_keeps ..
  · exact cmdSense_keeps ..
  · exact cmdReadConditions_keeps ..
  · exact reply_keeps ..
  · exact (takeAcknowledge_keeps ..).trans (settleReply_keeps _)
  · exact cmdAckAll_keeps ..
  · exact cmdShelve_keeps ..
  · exact cmdUnshelve_keeps ..
  · exact (takeRetire_keeps ..).trans (settleReply_keeps _)
  · exact cmdRetireDormant_keeps s
  · exact cmdPost_keeps ..
  · exact (takeReturn_keeps ..).trans (settleReply_keeps _)
  · exact (takeSilence_keeps s).trans (settleReply_keeps _)
  · exact cmdLoadSettings_keeps ..
  · unfold cmdReadSettings; split <;> exact reply_keeps ..
  · exact cmdCommit_keeps s
  · exact (discardStaging_keeps s).trans (reply_keeps ..)
  · exact cmdSetClock_keeps ..
  · exact reply_keeps ..
  · exact reply_keeps ..
  · exact cmdReadAttention_keeps s
  · exact cmdSetEnables_keeps ..
  · exact portResets_keeps s

/-! Strobes -/

theorem portFault_keeps (s : State) : Keeps s (portFault s) := keepsPort (fun p => { p with protocol := true }) s id

theorem takeCode_keeps (b : Byte) (s : State) : Keeps s (takeCode b s) := by
  unfold takeCode
  have h := keepsPort (fun p => { p with protocol := false }) s id
  dsimp only
  split
  · exact h.trans (reply_keeps ..)
  · exact h.trans (runCommand_keeps ..)
  · exact h.trans (keepsPort (fun p => { p with phase := .parameters b [] }) _ id)

theorem dataWrite_keeps (b : Byte) (s : State) : Keeps s (dataWrite b s) := by
  unfold dataWrite
  split
  · exact .refl s
  split
  · exact takeCode_keeps ..
  · unfold takeParameter
    split
    · exact runCommand_keeps ..
    · exact keepsPort _ s id
  · exact portFault_keeps s
  · exact portFault_keeps s
  · exact portFault_keeps s

/-- The bytes of an exchange, written one after another. -/
theorem writeBytes_keeps (bs : List Byte) (s : State) : Keeps s (writeBytes bs s) :=
  keeps_foldl _ (fun s b => dataWrite_keeps b s) bs s

theorem give_keeps (b : Byte) (s : State) : Keeps s (give b s) := keepsPort (fun p => { p with dataOut := b }) s id

theorem readData_keeps (tc : Bool) (s : State) : Keeps s (readData tc s) := by
  unfold readData
  split
  · exact .refl s
  split
  · exact (give_keeps ..).trans (takeStreamByte_keeps ..)
  · rename_i b rest _
    exact (give_keeps b s).trans (keepsPort (fun p => { p with phase := if rest = [] then .idle else .result rest }) _ id)
  · exact (give_keeps ..).trans (portFault_keeps _)
  · exact (give_keeps ..).trans (portFault_keeps _)
  · exact (give_keeps ..).trans (portFault_keeps _)
  · exact (give_keeps ..).trans (portFault_keeps _)

theorem writeStatus_keeps (b : Byte) (s : State) : Keeps s (writeStatus b s) := by
  unfold writeStatus
  split
  · exact .refl s
  split
  · exact portResets_keeps s
  · exact portFault_keeps s

/-! The period end -/

theorem blocksPeriodEnd_keeps (b : Bool) (s : State) : Keeps s (blocksPeriodEnd b s) := by
  have h : Keeps s (if b then s.onDuty Duty.endDrawdown else s) := by
    split
    · exact onDuty_endDrawdown_keeps s
    · exact .refl s
  exact (h.trans (headPeriodEnd_keeps _)).trans (formScreens_keeps _)

theorem offerPeriodEdges_keeps (handed formed : State) : Keeps formed (offerPeriodEdges handed formed) :=
  offerStages_keeps ..

theorem showPeriod_keeps (s : State) : Keeps s (showPeriod s) := ⟨id, id, id, id, id⟩

theorem takePeriodEnd_keeps (s : State) : Keeps s (takePeriodEnd s) :=
  ((((((((levelPeriodEnd_keeps s).trans (balancePeriodEnd_keeps ..)).trans (blocksPeriodEnd_keeps ..)).trans
    (offerPeriodEdges_keeps ..)).trans (wantedPeriodEnd_keeps _)).trans (settle_keeps _)).trans
    (testAllTriggers_keeps _)).trans (settle_keeps _)).trans (showPeriod_keeps _)

/-! Cold start (R199) -/

/-- Every block in its cold-start values meets the five promises, whatever stood before. -/
theorem coldBlocks_keeps (s : State) : Keeps s (coldBlocks s) where
  ladder := fun _ => List.Perm.refl _
  motors := fun _ n => by
    have h : (coldBlocks s).screen n = coldScreen (s.screen n) := Two.get_map _ _ _
    rw [h]; simp [coldScreen, Screen.cold]
  table := fun _ => ⟨by simp [coldBlocks, Table.cold], by simp [coldBlocks, Table.cold]⟩
  attn := fun _ => rfl
  credits := fun _ => .none rfl (by simp [coldBlocks, Link.cold])

theorem raisePump_keeps (s : State) (p : Ix6) : Keeps s (raisePump s p) := by
  have h : ∀ (c : Prop) [Decidable c] (u v : State), Keeps s u → Keeps u v → Keeps s (if c then v else u) := by
    intro c _ u v a b
    split
    · exact a.trans b
    · exact a
  unfold raisePump
  dsimp only
  exact h _ _ _ (h _ _ _ (h _ _ _ (.refl s) (raiseKind_keeps ..)) (raiseKind_keeps ..)) (raiseKind_keeps ..)

theorem raisePower_keeps (s : State) : Keeps s (raisePower s) := by
  unfold raisePower
  dsimp only
  have h := (edges_frame (fun s e => offerEdge e s) (fun s e => offerEdge_frame e s)
    (sourceEdges .mains s.power.source s.power.lines) s).keeps
  split
  · exact (h.trans (beginTransfer_keeps _)).trans (testAck_frame _).keeps
  · exact h

theorem startRake_keeps (s : State) (n : Ix2) : Keeps s (startRake s n) := by
  unfold startRake
  split
  · exact lockRake_keeps ..
  · exact beginOp_keeps ..

theorem startLink_keeps (s : State) : Keeps s (startLink s) := by
  unfold startLink
  split
  · exact enterJoining_keeps s
  · exact .refl s

theorem raiseSettings_keeps (f : Option (List Byte)) (s : State) : Keeps s (raiseSettings f s) := by
  unfold raiseSettings
  split
  · exact raiseKind_keeps ..
  · exact .refl s

theorem coldStart_keeps (s : State) : Keeps s (coldStart s) := by
  have h1 := keeps_foldl raisePump raisePump_keeps Ix6.all (coldBlocks s)
  unfold coldStart
  dsimp only
  generalize Ix6.all.foldl raisePump (coldBlocks s) = s1 at *
  have h2 := keeps_foldl startRake startRake_keeps Ix2.all (raisePower s1)
  generalize Ix2.all.foldl startRake (raisePower s1) = s2 at *
  exact (((((coldBlocks_keeps s).trans h1).trans (raisePower_keeps s1)).trans h2).trans (startLink_keeps s2)).trans
    ((raiseSettings_keeps _ _).trans (conclude_keeps _))

/-! Time (R197) -/

theorem tick_keeps (s : State) : Keeps s (tick s) where
  ladder := id
  motors := fun m n => by
    have h : (tick s).screen n = (s.screen n).tick := Two.get_map _ _ _
    rw [h]; exact m n
  table := fun ⟨a, b⟩ => ⟨by simp [tick, Table.tick, a], b⟩
  attn := id
  credits := id

end Sys2Proof.Machine
end

