-- ==== Sys2Proof/WellFormed.lean ====
section
/-!
DEFINITION. Which commands the wires can carry: the checks that the operand types alone do not make.
-/

namespace Sys2Proof

/-- A frame's payload is 0 to 128 bytes (section 10.1). -/
def payloadFits (payload : List Byte) : Bool := payload.length ≤ 128

/-- A command the wires can carry. A frame's payload has at most 128 bytes; POST CONDITION has eight data bytes (R138);
a code written as INVALID COMMAND names no command (R157); a frame taken as an invalid request is neither a HEARTBEAT,
a WAKE nor a JOIN-ACCEPT, and its kind names no request (R183). -/
def Instr.wellFormed : Instr → Bool
  | .takeTally _ p | .inhibit _ p | .drawdown _ p | .townAcknowledge _ p | .townRetire _ p | .joinAccept p
  | .heartbeat p | .lookUpByHandle _ p | .lookUpByKey _ p | .page _ p | .summary _ p | .quietAsk _ p | .wake p =>
    payloadFits p
  | .invalidRequest kind _ p =>
    payloadFits p && !Machine.namesRequest kind.toNat && kind.toNat ≠ 2 && kind.toNat ≠ 3 && kind.toNat ≠ 4
  | .postCondition _ _ _ data => data.length = 8
  | .invalidCommand code => Machine.parameterCount? code.toNat == none
  | _ => true

end Sys2Proof
end

