-- ==== Sys2Proof/Laws/PerInstr.lean ====
section
/-!
SUPPORT. What holds of every command as it is written: a frame of a well-formed command fits its length byte. One lemma
for each command.
-/

namespace Sys2Proof.Laws.WellFormedFrames

-- One lemma after another, as in the tests.
set_option Elab.async false

/-- The payload of a command that is the arrival of a frame. -/
def payload? : Instr → Option (List Byte)
  | .takeTally _ p | .inhibit _ p | .drawdown _ p | .townAcknowledge _ p | .townRetire _ p | .joinAccept p
  | .heartbeat p | .invalidRequest _ _ p | .lookUpByHandle _ p | .lookUpByKey _ p | .page _ p | .summary _ p
  | .quietAsk _ p | .wake p => some p
  | _ => none

/-- The length byte of a well-formed command's frame is the length of its payload, at most 128 (section 10.1). -/
def Statement (i : Instr) : Prop :=
  ∀ p, payload? i = some p → i.wellFormed = true → p.length ≤ 128 ∧ (BitVec.ofNat 8 p.length).toNat = p.length

theorem no_frame {i : Instr} (h : payload? i = none) : Statement i := by
  intro p hp
  simp [h] at hp

theorem fits {i : Instr} {q : List Byte} (h : payload? i = some q)
    (hw : i.wellFormed = true → q.length ≤ 128) : Statement i := by
  intro p hp w
  obtain rfl : q = p := by simpa [h] using hp
  have := hw w
  simp only [BitVec.toNat_ofNat]
  omega

theorem roundComplete (samples : Six (BitVec 12)) (reference : BitVec 12) :
    Statement (.roundComplete samples reference) :=
  no_frame rfl

theorem periodEnd (samples : Six (BitVec 12)) (reference : BitVec 12) : Statement (.periodEnd samples reference) :=
  no_frame rfl

theorem floatInputChange (float : FloatId) (made : Bool) : Statement (.floatInputChange float made) := no_frame rfl

theorem floatDebounceExpiry (float : FloatId) : Statement (.floatDebounceExpiry float) := no_frame rfl

theorem separationTimerExpiry (weir : Ix2) : Statement (.separationTimerExpiry weir) := no_frame rfl

theorem takeTally (tag : Byte) (payload : List Byte) : Statement (.takeTally tag payload) :=
  fits rfl fun h => by simpa [Instr.wellFormed, payloadFits] using h

theorem readTallies : Statement .readTallies := no_frame rfl

theorem readChannels : Statement .readChannels := no_frame rfl

theorem selectorLineChange (pump : Ix6) (line : SelectorLine) (made : Bool) :
    Statement (.selectorLineChange pump line made) :=
  no_frame rfl

theorem selectorDebounceExpiry (pump : Ix6) (line : SelectorLine) : Statement (.selectorDebounceExpiry pump line) :=
  no_frame rfl

theorem startHistoryAgeOut (pump : Ix6) : Statement (.startHistoryAgeOut pump) := no_frame rfl

theorem headBlockedDelayExpiry (pump : Ix6) : Statement (.headBlockedDelayExpiry pump) := no_frame rfl

theorem setDutyOrder (order : Six Byte) : Statement (.setDutyOrder order) := no_frame rfl

theorem inhibitPump (pump : Byte) : Statement (.inhibitPump pump) := no_frame rfl

theorem releasePump (pump : Byte) : Statement (.releasePump pump) := no_frame rfl

theorem inhibit (tag : Byte) (payload : List Byte) : Statement (.inhibit tag payload) :=
  fits rfl fun h => by simpa [Instr.wellFormed, payloadFits] using h

theorem drawdown (tag : Byte) (payload : List Byte) : Statement (.drawdown tag payload) :=
  fits rfl fun h => by simpa [Instr.wellFormed, payloadFits] using h

theorem drawdownExpiry : Statement .drawdownExpiry := no_frame rfl

theorem runSecondsTick (pump : Ix6) : Statement (.runSecondsTick pump) := no_frame rfl

theorem loadTotals (pump : Byte) (runSeconds starts : BitVec 32) : Statement (.loadTotals pump runSeconds starts) :=
  no_frame rfl

theorem readPump (pump : Byte) : Statement (.readPump pump) := no_frame rfl

theorem pumpInputChange (pump : Ix6) (input : PumpInput) (value : Bool) :
    Statement (.pumpInputChange pump input value) :=
  no_frame rfl

theorem pumpInputDebounceExpiry (pump : Ix6) (input : PumpInput) : Statement (.pumpInputDebounceExpiry pump input) :=
  no_frame rfl

theorem startWindowExpiry (pump : Ix6) : Statement (.startWindowExpiry pump) := no_frame rfl

theorem minRunExpiry (pump : Ix6) : Statement (.minRunExpiry pump) := no_frame rfl

theorem stopWindowExpiry (pump : Ix6) : Statement (.stopWindowExpiry pump) := no_frame rfl

theorem runDownExpiry (pump : Ix6) : Statement (.runDownExpiry pump) := no_frame rfl

theorem resetLockout (cls number : Byte) : Statement (.resetLockout cls number) := no_frame rfl

theorem powerLineChange (line : PowerLine) (made : Bool) : Statement (.powerLineChange line made) := no_frame rfl

theorem powerLineDebounceExpiry (line : PowerLine) : Statement (.powerLineDebounceExpiry line) := no_frame rfl

theorem staggerTimerExpiry : Statement .staggerTimerExpiry := no_frame rfl

theorem rakeInputChange (screen : Ix2) (input : RakeInput) (made : Bool) :
    Statement (.rakeInputChange screen input made) :=
  no_frame rfl

theorem rakeInputDebounceExpiry (screen : Ix2) (input : RakeInput) :
    Statement (.rakeInputDebounceExpiry screen input) :=
  no_frame rfl

theorem pulse (screen : Ix2) : Statement (.pulse screen) := no_frame rfl

theorem gripDwellExpiry (screen : Ix2) : Statement (.gripDwellExpiry screen) := no_frame rfl

theorem dischargeDwellExpiry (screen : Ix2) : Statement (.dischargeDwellExpiry screen) := no_frame rfl

theorem rakeCycle (screen : Byte) : Statement (.rakeCycle screen) := no_frame rfl

theorem rakeHome (screen : Byte) : Statement (.rakeHome screen) := no_frame rfl

theorem rakePosition (screen : Byte) (position : BitVec 16) : Statement (.rakePosition screen position) :=
  no_frame rfl

theorem rakeFinish (screen count : Byte) : Statement (.rakeFinish screen count) := no_frame rfl

theorem jamTimerExpiry (screen : Ix2) : Statement (.jamTimerExpiry screen) := no_frame rfl

theorem reverseTimerExpiry (screen : Ix2) : Statement (.reverseTimerExpiry screen) := no_frame rfl

theorem senseScreen (screen : Byte) : Statement (.senseScreen screen) := no_frame rfl

theorem readScreen (screen : Byte) : Statement (.readScreen screen) := no_frame rfl

theorem acknowledge (slot generation : Byte) : Statement (.acknowledge slot generation) := no_frame rfl

theorem townAcknowledge (tag : Byte) (payload : List Byte) : Statement (.townAcknowledge tag payload) :=
  fits rfl fun h => by simpa [Instr.wellFormed, payloadFits] using h

theorem retire (slot generation : Byte) : Statement (.retire slot generation) := no_frame rfl

theorem townRetire (tag : Byte) (payload : List Byte) : Statement (.townRetire tag payload) :=
  fits rfl fun h => by simpa [Instr.wellFormed, payloadFits] using h

theorem shelve (slot generation : Byte) (minutes : BitVec 16) : Statement (.shelve slot generation minutes) :=
  no_frame rfl

theorem unshelve (slot generation : Byte) : Statement (.unshelve slot generation) := no_frame rfl

theorem shelfTimerExpiry (slot : Fin 48) : Statement (.shelfTimerExpiry slot) := no_frame rfl

theorem postCondition (code severity length : Byte) (data : List Byte) :
    Statement (.postCondition code severity length data) :=
  no_frame rfl

theorem returnCondition (code : Byte) : Statement (.returnCondition code) := no_frame rfl

theorem acknowledgeAll (severity cls shelved : Byte) : Statement (.acknowledgeAll severity cls shelved) :=
  no_frame rfl

theorem retireDormant : Statement .retireDormant := no_frame rfl

theorem findCondition (cls number kind : Byte) : Statement (.findCondition cls number kind) := no_frame rfl

theorem silence : Statement .silence := no_frame rfl

theorem flashPhase : Statement .flashPhase := no_frame rfl

theorem statusWrite (byte : Byte) : Statement (.statusWrite byte) := no_frame rfl

theorem dataRead (tc : Bool) : Statement (.dataRead tc) := no_frame rfl

theorem parameterByte (byte : Byte) : Statement (.parameterByte byte) := no_frame rfl

theorem invalidCommand (code : Byte) : Statement (.invalidCommand code) := no_frame rfl

theorem readConditions (start maximum severity states shelved cls : Byte) :
    Statement (.readConditions start maximum severity states shelved cls) :=
  no_frame rfl

theorem byteWindowExpiry : Statement .byteWindowExpiry := no_frame rfl

theorem readAttention : Statement .readAttention := no_frame rfl

theorem setAttentionEnables (enables : Byte) : Statement (.setAttentionEnables enables) := no_frame rfl

theorem portReset : Statement .portReset := no_frame rfl

theorem resetAssert : Statement .resetAssert := no_frame rfl

theorem resetRelease : Statement .resetRelease := no_frame rfl

theorem resetTimerExpiry : Statement .resetTimerExpiry := no_frame rfl

theorem readSummary : Statement .readSummary := no_frame rfl

theorem frameCheckFail : Statement .frameCheckFail := no_frame rfl

theorem framingError : Statement .framingError := no_frame rfl

theorem interByteTimerExpiry : Statement .interByteTimerExpiry := no_frame rfl

theorem frameSent : Statement .frameSent := no_frame rfl

theorem offerTimerExpiry : Statement .offerTimerExpiry := no_frame rfl

theorem joinAccept (payload : List Byte) : Statement (.joinAccept payload) :=
  fits rfl fun h => by simpa [Instr.wellFormed, payloadFits] using h

theorem heartbeat (payload : List Byte) : Statement (.heartbeat payload) :=
  fits rfl fun h => by simpa [Instr.wellFormed, payloadFits] using h

theorem heartbeatTimerExpiry : Statement .heartbeatTimerExpiry := no_frame rfl

theorem statusTimerExpiry : Statement .statusTimerExpiry := no_frame rfl

theorem invalidRequest (kind tag : Byte) (payload : List Byte) : Statement (.invalidRequest kind tag payload) :=
  fits rfl fun h => by
    simp only [Instr.wellFormed, payloadFits, Bool.and_eq_true, decide_eq_true_eq] at h
    exact h.1.1.1.1

theorem lookUpByHandle (tag : Byte) (payload : List Byte) : Statement (.lookUpByHandle tag payload) :=
  fits rfl fun h => by simpa [Instr.wellFormed, payloadFits] using h

theorem lookUpByKey (tag : Byte) (payload : List Byte) : Statement (.lookUpByKey tag payload) :=
  fits rfl fun h => by simpa [Instr.wellFormed, payloadFits] using h

theorem page (tag : Byte) (payload : List Byte) : Statement (.page tag payload) :=
  fits rfl fun h => by simpa [Instr.wellFormed, payloadFits] using h

theorem summary (tag : Byte) (payload : List Byte) : Statement (.summary tag payload) :=
  fits rfl fun h => by simpa [Instr.wellFormed, payloadFits] using h

theorem quietAsk (tag : Byte) (payload : List Byte) : Statement (.quietAsk tag payload) :=
  fits rfl fun h => by simpa [Instr.wellFormed, payloadFits] using h

theorem wake (payload : List Byte) : Statement (.wake payload) :=
  fits rfl fun h => by simpa [Instr.wellFormed, payloadFits] using h

theorem lossTimerExpiry : Statement .lossTimerExpiry := no_frame rfl

theorem readLink : Statement .readLink := no_frame rfl

theorem loadSettings (sec field : Byte) (value : BitVec 32) : Statement (.loadSettings sec field value) :=
  no_frame rfl

theorem readSettings (which sec field : Byte) : Statement (.readSettings which sec field) := no_frame rfl

theorem discardSettings : Statement .discardSettings := no_frame rfl

theorem commitSettings : Statement .commitSettings := no_frame rfl

theorem storeWriteReport (complete : Bool) : Statement (.storeWriteReport complete) := no_frame rfl

theorem storeTimeoutExpiry : Statement .storeTimeoutExpiry := no_frame rfl

theorem clockTick : Statement .clockTick := no_frame rfl

theorem setClock (seconds : BitVec 32) (ticks : Byte) : Statement (.setClock seconds ticks) := no_frame rfl

theorem readClock : Statement .readClock := no_frame rfl

theorem coldStart : Statement .coldStart := no_frame rfl

theorem commandCodeWrite (byte : Byte) : Statement (.commandCodeWrite byte) := no_frame rfl

theorem byteReceived (byte : Byte) : Statement (.byteReceived byte) := no_frame rfl

end Sys2Proof.Laws.WellFormedFrames
end

