-- ==== Sys2Proof/Laws/Table.lean ====
section
/-!
SUPPORT. What the shared operations of the Condition Table do to a slot, to the other slots and to the lists around
them.
-/

namespace Sys2Proof.Machine

/-! Slots -/

theorem slot_of_ge {t : Table} {i : Nat} (h : t.slots.length ≤ i) : t.slot i = .fresh := by
  simp [Table.slot, List.getElem?_eq_none h]

theorem lt_of_record {t : Table} {i : Nat} {r : Record} (h : (t.slot i).record = some r) : i < t.slots.length := by
  rcases Nat.lt_or_ge i t.slots.length with k | k
  · exact k
  · rw [slot_of_ge k] at h; cases h

theorem getD_set_self {l : List Slot} {i : Nat} (x : Slot) (h : i < l.length) : (l.set i x).getD i .fresh = x := by
  simp [h]

theorem getD_set_ne {l : List Slot} {i j : Nat} (x : Slot) (h : j ≠ i) :
    (l.set i x).getD j .fresh = l.getD j .fresh := by
  simp [Ne.symm h]

/-! A change of a record (R123) -/

/-- A change of the record in a slot, said whole. -/
theorem changeRecord_eq {i : Nat} {r : Record} {s : State} (h : (s.table.slot i).record = some r)
    (f : Record → Record) :
    changeRecord i f s = setFlag .condition (s.onTable fun t => { t with
      changeOrder := nextOrder s.table.changeOrder
      slots := t.slots.set i { t.slot i with
        record := some { f r with
          lastChange := s.clock.station, changeOrder := nextOrder s.table.changeOrder, townCurrent := false } } }) := by
  unfold changeRecord
  rw [h]

theorem changeRecord_slot {i : Nat} {r : Record} {s : State} (h : (s.table.slot i).record = some r)
    (f : Record → Record) :
    (changeRecord i f s).table.slot i = { s.table.slot i with
      record := some { f r with
        lastChange := s.clock.station, changeOrder := nextOrder s.table.changeOrder, townCurrent := false } } := by
  rw [changeRecord_eq h]
  exact getD_set_self _ (lt_of_record h)

theorem changeRecord_slot_ne {i j : Nat} (h : j ≠ i) (f : Record → Record) (s : State) :
    (changeRecord i f s).table.slot j = s.table.slot j := by
  unfold changeRecord
  split
  · rfl
  · exact getD_set_ne _ h

theorem changeRecord_waiting (i : Nat) (f : Record → Record) (s : State) :
    (changeRecord i f s).table.waiting = s.table.waiting := by
  unfold changeRecord
  split <;> rfl

theorem changeRecord_order {i : Nat} {r : Record} {s : State} (h : (s.table.slot i).record = some r)
    (f : Record → Record) : (changeRecord i f s).table.changeOrder = nextOrder s.table.changeOrder := by
  rw [changeRecord_eq h]; rfl

theorem changeRecord_flag {i : Nat} {r : Record} {s : State} (h : (s.table.slot i).record = some r)
    (f : Record → Record) : (changeRecord i f s).port.flags.condition = true := by
  rw [changeRecord_eq h]; rfl

theorem changeRecord_counts (i : Nat) (f : Record → Record) (s : State) :
    (changeRecord i f s).table.raisedSinceClear = s.table.raisedSinceClear ∧
      (changeRecord i f s).table.saturated = s.table.saturated ∧
      (changeRecord i f s).table.suppressed = s.table.suppressed ∧
      (changeRecord i f s).table.lastClear = s.table.lastClear := by
  unfold changeRecord
  split <;> exact ⟨rfl, rfl, rfl, rfl⟩

/-! A record that enters RAISED (R147, R187) -/

theorem wakeLink_table (b : Bool) (s : State) : (wakeLink b s).table = s.table := by
  unfold wakeLink
  split <;> rfl

theorem enteredRaised_table (r : Record) (s : State) : (enteredRaised r s).table = s.table := by
  unfold enteredRaised
  dsimp only
  split <;> split <;> first | rw [wakeLink_table] | rfl
  rfl

/-! The waiting list and a raise's count (R133, R143) -/

theorem serve_nil {s : State} (h : s.table.waiting = []) : serve s = s := by
  simp [serve, h, serveWaiting]

theorem setWaiting_same {l : List Waiting} {s : State} (h : l = s.table.waiting) : setWaiting l s = s := if_pos h

theorem setWaiting_slots (l : List Waiting) (s : State) : (setWaiting l s).table.slots = s.table.slots := by
  unfold setWaiting
  split <;> rfl

theorem setWaiting_waiting (l : List Waiting) (s : State) : (setWaiting l s).table.waiting = l := by
  unfold setWaiting
  split
  · exact Eq.symm ‹_›
  · rfl

/-! A seating (R126) -/

theorem seat_slot {i : Nat} {s : State} (h : i < s.table.slots.length) (k : Key) (sev : Severity) (x : List Byte)
    (first : Stamp) :
    (seat i k sev x first s).table.slot i = ⟨nextGen (s.table.slot i).gen,
      some ⟨k, sev, .raised, false, none, .nobody, 1, first, s.clock.station, nextOrder s.table.changeOrder, x, false⟩,
      none⟩ := by
  unfold seat Table.slot
  rw [enteredRaised_table]
  exact getD_set_self _ h

theorem seat_slot_ne {i j : Nat} (h : j ≠ i) (k : Key) (sev : Severity) (x : List Byte) (first : Stamp) (s : State) :
    (seat i k sev x first s).table.slot j = s.table.slot j := by
  unfold seat Table.slot
  rw [enteredRaised_table]
  exact getD_set_ne _ h

theorem seat_lists (i : Nat) (k : Key) (sev : Severity) (x : List Byte) (first : Stamp) (s : State) :
    (seat i k sev x first s).table.waiting = s.table.waiting ∧
      (seat i k sev x first s).table.raisedSinceClear = s.table.raisedSinceClear ∧
      (seat i k sev x first s).table.suppressed = s.table.suppressed ∧
      (seat i k sev x first s).table.saturated = s.table.saturated := by
  unfold seat
  rw [enteredRaised_table]
  exact ⟨rfl, rfl, rfl, rfl⟩

/-! A suppression (R127, R132) -/

theorem countSuppression_table (sev : Severity) (s : State) :
    (countSuppression sev s).table.waiting = s.table.waiting ∧
      (countSuppression sev s).table.saturated = true ∧
      (countSuppression sev s).table.suppressed = s.table.suppressed.add sev ∧
      (∀ j, j ≠ 0 → (countSuppression sev s).table.slot j = s.table.slot j) ∧
      (countSuppression sev s).table.raisedSinceClear = s.table.raisedSinceClear := by
  unfold countSuppression
  dsimp only
  generalize hu : (s.onTable fun t => { t with suppressed := s.table.suppressed.add sev, saturated := true }) = u
  have h1 : u.table.waiting = s.table.waiting := by rw [← hu]; rfl
  have h2 : u.table.saturated = true := by rw [← hu]; rfl
  have h3 : u.table.suppressed = s.table.suppressed.add sev := by rw [← hu]; rfl
  have h4 : ∀ j, u.table.slot j = s.table.slot j := fun j => by rw [← hu]; rfl
  have h5 : u.table.raisedSinceClear = s.table.raisedSinceClear := by rw [← hu]; rfl
  have hc : ∀ f, (changeRecord 0 f u).table.waiting = s.table.waiting ∧
      (changeRecord 0 f u).table.saturated = true ∧
      (changeRecord 0 f u).table.suppressed = s.table.suppressed.add sev ∧
      (∀ j, j ≠ 0 → (changeRecord 0 f u).table.slot j = s.table.slot j) ∧
      (changeRecord 0 f u).table.raisedSinceClear = s.table.raisedSinceClear := fun f => by
    obtain ⟨a, b, c, -⟩ := changeRecord_counts 0 f u
    exact ⟨(changeRecord_waiting ..).trans h1, b.trans h2, c.trans h3,
      fun j hj => (changeRecord_slot_ne hj f u).trans (h4 j), a.trans h5⟩
  split
  · split
    · exact ⟨h1, h2, h3, fun j _ => h4 j, h5⟩
    · exact hc _
  · unfold raiseSaturated
    dsimp only
    split
    · unfold raiseSeated
      split
      · exact ⟨h1, h2, h3, fun j _ => h4 j, h5⟩
      · dsimp only
        split
        · have he := fun r u => enteredRaised_table r u
          simp only [Table.slot, he]
          exact hc _
        · exact hc _
    · obtain ⟨a, b, c, d⟩ := seat_lists 0 ⟨.tableSaturated, 0⟩ .major u.table.suppressed.image u.clock.station u
      exact ⟨a.trans h1, d.trans h2, c.trans h3, fun j hj => (seat_slot_ne hj ..).trans (h4 j), b.trans h5⟩

/-! The four ways of a raise (R124, R126, R127, R133) -/

theorem raise_seated {k : Key} {i : Nat} {s : State} (h : s.table.seatedAt? k = some i) (sev : Severity)
    (x : List Byte) : raise k sev x s = raiseSeated i sev x (countRaise s) := by
  have h1 : (countRaise s).table.seatedAt? k = some i := h
  unfold raise
  dsimp only
  rw [h1]

theorem raise_placed {k : Key} {i : Nat} {s : State} (h : s.table.seatedAt? k = none)
    (hw : s.table.waitsAt? k = none) (hp : s.table.place? = some i) (sev : Severity) (x : List Byte) :
    raise k sev x s = seat i k sev x s.clock.station (countRaise s) := by
  have h1 : (countRaise s).table.seatedAt? k = none := h
  have h2 : (countRaise s).table.waitsAt? k = none := hw
  have h3 : (countRaise s).table.place? = some i := hp
  unfold raise
  dsimp only
  rw [h1]
  dsimp only
  rw [h2]
  dsimp only
  rw [h3]
  rfl

theorem raise_waiting {k : Key} {i : Nat} {s : State} (h : s.table.seatedAt? k = none)
    (hw : s.table.waitsAt? k = some i) (sev : Severity) (x : List Byte) :
    raise k sev x s = countSuppression sev
      (setWaiting (s.table.waiting.map fun w => if w.key = k then { w with extra := x } else w) (countRaise s)) := by
  have h1 : (countRaise s).table.seatedAt? k = none := h
  have h2 : (countRaise s).table.waitsAt? k = some i := hw
  unfold raise
  dsimp only
  rw [h1]
  dsimp only
  rw [h2]
  rfl

theorem raise_nowhere {k : Key} {s : State} (h : s.table.seatedAt? k = none)
    (hw : s.table.waitsAt? k = none) (hp : s.table.place? = none) (sev : Severity) (x : List Byte) :
    raise k sev x s = countSuppression sev
      (setWaiting (enlist ⟨k, sev, x, s.clock.station⟩ s.table.waiting) (countRaise s)) := by
  have h1 : (countRaise s).table.seatedAt? k = none := h
  have h2 : (countRaise s).table.waitsAt? k = none := hw
  have h3 : (countRaise s).table.place? = none := hp
  unfold raise
  dsimp only
  rw [h1]
  dsimp only
  rw [h2]
  dsimp only
  rw [h3]
  rfl

/-! A removal (R130) -/

theorem removeRecord_slot {i : Nat} {s : State} (h : i < s.table.slots.length) :
    (removeRecord i s).table.slot i =
      { s.table.slot i with record := none, goneOwed := some (nextOrder s.table.changeOrder) } :=
  getD_set_self _ h

theorem removeRecord_slot_ne {i j : Nat} (h : j ≠ i) (s : State) :
    (removeRecord i s).table.slot j = s.table.slot j := getD_set_ne _ h

/-! Edges that no rule orders (R123) -/

@[simp] theorem offerEdges_nil (s : State) : offerEdges [] s = s := rfl

@[simp] theorem offerEdges_one (e : Edge) (s : State) : offerEdges [e] s = offerEdge e s := rfl

@[simp] theorem causeEdge_same (k : Kind) (n : Nat) (b : Bool) (x : List Byte) : causeEdge k n b b x = [] := if_pos rfl

@[simp] theorem causeEdge_rise (k : Kind) (n : Nat) (x : List Byte) : causeEdge k n false true x = [⟨k, n, some x⟩] := rfl

@[simp] theorem causeEdge_fall (k : Kind) (n : Nat) (x : List Byte) : causeEdge k n true false x = [⟨k, n, none⟩] := rfl

/-- A cause that falls, or stands absent, has at most its return (R125). -/
theorem offer_fall (k : Kind) (n : Nat) (b : Bool) (s : State) :
    offerEdges (causeEdge k n b false []) s = if b then returnKind k n s else s := by cases b <;> rfl

/-- A drawdown's end: its return where one is active (R54). -/
theorem endDrawdown_eq (s : State) : endDrawdown s =
    if s.duty.drawdownActive then
      returnKind .drawdown 0 (s.onDuty fun d => { d with drawdown := 0, drawdownTimer := none })
    else s := by
  unfold endDrawdown drawdownReturn
  rw [offer_fall]
  cases h : s.duty.drawdownActive <;> simp [Duty.endDrawdown, State.onDuty, h]

/-! Changes that no rule orders (R123) -/

theorem Table.takeLowest_mem (t : Table) :
    ∀ {l : List Change} {c : Change} {rest : List Change}, t.takeLowest l = some (c, rest) → c ∈ l
  | x :: l, c, rest, h => by
    unfold takeLowest at h
    split at h
    · rename_i m r hm
      have := t.takeLowest_mem hm
      split at h <;> cases h <;> simp [this]
    · cases h; simp

/-- The change taken is the first of those in the lowest slot, and the others keep their order. -/
theorem Table.takeLowest_eq (t : Table) (a b : List Change) (c : Change)
    (ha : ∀ x ∈ a, t.changeSlot c < t.changeSlot x) (hb : ∀ x ∈ b, t.changeSlot c ≤ t.changeSlot x) :
    t.takeLowest (a ++ c :: b) = some (c, a ++ b) := by
  induction a with
  | nil =>
    simp only [List.nil_append, takeLowest]
    split
    · rename_i m rest h
      rw [if_neg (Nat.not_lt.mpr (hb _ (t.takeLowest_mem h)))]
    · rename_i h
      cases b with
      | nil => rfl
      | cons x l => unfold takeLowest at h; split at h <;> (try split at h) <;> cases h
  | cons x a ih =>
    simp only [List.cons_append, takeLowest, ih fun y hy => ha y (.tail _ hy)]
    rw [if_pos (ha x (.head _))]

end Sys2Proof.Machine
end

