-- ==== Sys2Proof/Laws/Reading.lean ====
section
/-!
SUPPORT. How operands are read: numbers from their bytes, assets from their numbers, and the bytes of a whole exchange
written one after another.
-/

namespace Sys2Proof.Machine

/-! Assets by number -/

theorem six?_num (p : Ix6) : six? p.num = some p := by cases p <;> rfl

theorem two?_num (n : Ix2) : two? n.num = some n := by cases n <;> rfl

theorem num_of_six? {n : Nat} {p : Ix6} (h : six? n = some p) : n = p.num := by
  unfold six? at h
  split at h <;> cases h <;> rfl

theorem num_of_two? {n : Nat} {p : Ix2} (h : two? n = some p) : n = p.num := by
  unfold two? at h
  split at h <;> cases h <;> rfl

theorem six?_none {n : Nat} (h : ∀ p : Ix6, n ≠ p.num) : six? n = none := by
  cases e : six? n with
  | none => rfl
  | some p => exact absurd (num_of_six? e) (h p)

theorem two?_none {n : Nat} (h : ∀ p : Ix2, n ≠ p.num) : two? n = none := by
  cases e : two? n with
  | none => rfl
  | some p => exact absurd (num_of_two? e) (h p)

/-! Numbers from bytes (R200) -/

theorem byteAt_zero (b : Byte) (bs : List Byte) : byteAt (b :: bs) 0 = b.toNat := rfl

theorem byteAt_one (a b : Byte) (bs : List Byte) : byteAt (a :: b :: bs) 1 = b.toNat := rfl

theorem byteAt_two (a b c : Byte) (bs : List Byte) : byteAt (a :: b :: c :: bs) 2 = c.toNat := rfl

theorem byte_toNat (n : Nat) : (byte n).toNat = n % 256 := by simp [byte]

theorem byte_of_toNat (b : Byte) : byte b.toNat = b := by simp [byte]

theorem natOfBytes_bytes2 {n : Nat} (h : n < 65536) : natOfBytes (bytes2 n) = n := by
  simp only [natOfBytes, bytes2, List.foldl, byte_toNat]
  omega

theorem natOfBytes_bytes4 {n : Nat} (h : n < 4294967296) : natOfBytes (bytes4 n) = n := by
  simp only [natOfBytes, bytes4, List.foldl, byte_toNat]
  omega

theorem natOfBytes_word (w : BitVec 16) : natOfBytes (bytes2 w.toNat) = w.toNat := natOfBytes_bytes2 w.isLt

theorem natOfBytes_long (w : BitVec 32) : natOfBytes (bytes4 w.toNat) = w.toNat := natOfBytes_bytes4 w.isLt

theorem bytes2_length (n : Nat) : (bytes2 n).length = 2 := rfl

theorem bytes4_length (n : Nat) : (bytes4 n).length = 4 := rfl

/-! Bytes of an exchange (R156) -/

/-- Parameter bytes short of the fixed count wait in PARAMETERS; the one that reaches it executes the command. -/
theorem writeBytes_parameters (code : Byte) (s : State) (hr : s.port.resetLine = false) :
    ∀ (qs ps : List Byte), s.port.phase = .parameters code qs → ps ≠ [] →
      parameterCount? code.toNat = some (qs.length + ps.length) →
      writeBytes ps s = runCommand code.toNat (qs ++ ps)
        (s.onPort fun p => { p with phase := .parameters code (qs ++ ps.dropLast) }) := by
  intro qs ps
  induction ps generalizing qs s with
  | nil => intro _ h; exact absurd rfl h
  | cons b ps ih =>
    intro hp _ hc
    have hw : dataWrite b s = takeParameter code qs b s := by unfold dataWrite; simp [hr, hp]
    cases ps with
    | nil =>
      have hs : (s.onPort fun p => { p with phase := .parameters code (qs ++ [b].dropLast) }) = s := by
        rcases s with ⟨_, _, _, _, _, _, _, _, _, ⟨_, _, _, _, _, _, _, _, _⟩, _, _, _⟩
        simp only [State.onPort, List.dropLast_singleton, List.append_nil] at *
        simp [hp]
      rw [hs]
      show dataWrite b s = _
      rw [hw, takeParameter, hc]
      simp
    | cons c ps =>
      have h1 : takeParameter code qs b s = s.onPort fun p => { p with phase := .parameters code (qs ++ [b]) } := by
        rw [takeParameter, hc]
        simp only [List.length_cons, Option.getD_some]
        rw [if_neg (by omega)]
      show writeBytes (c :: ps) (dataWrite b s) = _
      rw [hw, h1, ih (s.onPort fun p => { p with phase := .parameters code (qs ++ [b]) }) hr (qs ++ [b]) rfl (by simp)
        (by rw [hc]; simp; omega)]
      simp [State.onPort]

/-- In IDLE, the bytes of a command without parameters execute it. -/
theorem writeBytes_bare {s : State} (h : s.portIdle) {code : Byte} (hc : parameterCount? code.toNat = some 0) :
    writeBytes [code] s = runCommand code.toNat [] (s.taken code []) := by
  have hi : dataWrite code s = takeCode code s := by unfold dataWrite; simp [h.1, h.2]
  show dataWrite code s = _
  rw [hi, takeCode]
  simp only [hc]
  rfl

/-- In IDLE, the bytes of a whole command execute it (R156). -/
theorem writeBytes_command {s : State} (h : s.portIdle) {code : Byte} {ps : List Byte}
    (hc : parameterCount? code.toNat = some ps.length) :
    writeBytes (code :: ps) s = runCommand code.toNat ps (s.taken code ps) := by
  cases ps with
  | nil => exact writeBytes_bare h hc
  | cons b ps =>
    have hi : dataWrite code s = takeCode code s := by unfold dataWrite; simp [h.1, h.2]
    have h1 : takeCode code s = s.onPort fun p => { p with protocol := false, phase := .parameters code [] } := by
      simp only [takeCode, hc, List.length_cons]
      rfl
    show writeBytes (b :: ps) (dataWrite code s) = _
    rw [hi, h1, writeBytes_parameters code (s.onPort fun p => { p with protocol := false, phase := .parameters code [] })
      h.2 [] (b :: ps) rfl (by simp) (by rw [hc]; simp)]
    rfl

/-! Requests (R183) -/

theorem woken_requests (s : State) : s.woken.link.requests = s.link.requests := by
  unfold State.woken wakeLink
  split <;> rfl

theorem woken_table (s : State) : s.woken.table = s.table := wakeLink_table ..

/-- A frame taken as a request in ONLINE or QUIET comes to its admission. -/
theorem arrive_request {kind tag : Byte} {s : State} (p : List Byte)
    (h : s.link.state = .online ∨ s.link.state = .quiet) (h2 : kind.toNat ≠ 2) (h3 : kind.toNat ≠ 3)
    (h4 : kind.toNat ≠ 4) : arrive kind tag p s = conclude (takeAdmitted kind tag p s.woken) := by
  have ho : s.link.state ≠ .offline := by rcases h with h | h <;> simp [h]
  have hj : joinedArrival kind tag p (hunt s) = takeAdmitted kind tag p s.woken := by
    unfold joinedArrival
    split
    · exact absurd ‹_› h2
    · exact absurd ‹_› h3
    · exact absurd ‹_› h4
    · rfl
  have ht : takeFrame kind tag p (hunt s) = joinedArrival kind tag p (hunt s) := by
    have hs : (hunt s).link.state = s.link.state := rfl
    unfold takeFrame
    rcases h with h | h <;> rw [hs, h]
  rw [arrive, if_neg ho, ht, hj]

/-- An admitted request is answered (R183). -/
theorem arrive_admitted {kind tag : Byte} {s : State} (p : List Byte) (h : Admits tag s) (h2 : kind.toNat ≠ 2)
    (h3 : kind.toNat ≠ 3) (h4 : kind.toNat ≠ 4) :
    arrive kind tag p s = conclude (respond kind tag (answerRequest kind p s.woken)) := by
  rw [arrive_request p h.joined h2 h3 h4, takeAdmitted, woken_requests, if_neg (by have := h.room; omega), if_neg]
  simp only [List.any_eq_true, decide_eq_true_eq, not_exists, not_and]
  exact h.fresh

end Sys2Proof.Machine
end

