-- ==== Sys2Proof/Tests/Slice0.lean ====
section
/-!
SUPPORT. The model's own tests: the checks of well-formedness refuse ill-formed commands, the manual's worked examples
come out as it prints them, and every statement's hypotheses are met by a concrete state.
-/

namespace Sys2Proof.Tests

-- One test after another: those that the kernel evaluates would wait for one another in threads of their own.
set_option Elab.async false

open Sys2Proof.Machine

/-! Well-formedness: an ill-formed command for each check -/

theorem test_long_payload_is_refused :
    (Instr.heartbeat (List.replicate 129 0)).wellFormed = false ∧
      (Instr.page 1 (List.replicate 128 0)).wellFormed = true := by decide +kernel

theorem test_frame_of_another_kind_is_no_invalid_request :
    (Instr.invalidRequest 0x02 1 []).wellFormed = false ∧ (Instr.invalidRequest 0x03 1 []).wellFormed = false ∧
      (Instr.invalidRequest 0x04 1 []).wellFormed = false ∧ (Instr.invalidRequest 0x10 1 []).wellFormed = false ∧
      (Instr.invalidRequest 0x19 1 []).wellFormed = false ∧ (Instr.invalidRequest 0x1A 1 []).wellFormed = true := by
  decide

theorem test_long_invalid_request_is_refused :
    (Instr.invalidRequest 0x1A 1 (List.replicate 129 0)).wellFormed = false := by decide +kernel

theorem test_post_has_eight_bytes :
    (Instr.postCondition 7 0 1 [1, 2, 3]).wellFormed = false ∧
      (Instr.postCondition 7 0 1 [1, 2, 3, 4, 5, 6, 7, 8]).wellFormed = true := by decide

theorem test_a_command_code_is_no_invalid_command :
    (Instr.invalidCommand 0x01).wellFormed = false ∧ (Instr.invalidCommand 0x04).wellFormed = true := by decide

/-! Helpers -/

/-- The state a command answers. -/
def after (i : Instr) (s : State) : State :=
  match exec i s with
  | .next t => t
  | _ => s

/-- The factory settings with one field put. -/
def set1 (sec field value : Nat) (s : State) : State :=
  s.onStore fun st => { st with running := st.running.put sec field value }

/-- The link joined: grant 2, heartbeat period 20 s (section 10.11). -/
def joined : State := State.reset.onLink fun l =>
  { l with state := .online, grant := some 2, period := some 20, credits := 2 }

/-- A record of a key, of the kind's own severity, in a state. -/
def recordOf (k : Key) (st : RecState) (order : Nat) : Record :=
  ⟨k, k.kind.severity, st, false, none, .nobody, 1, ⟨0, 0⟩, ⟨0, 0⟩, order, [], true⟩

/-- The reset state with a slot of the table given. -/
def seatAt (i : Nat) (sl : Slot) (s : State) : State := s.onTable fun t => { t with slots := t.slots.set i sl }

/-- The table of section 7.12: every general slot seated, two of them DORMANT. -/
def stormTable : Table := { Table.cold with
  slots := (List.range 48).map fun i =>
    if i = 0 then ⟨3, none, none⟩
    else if i = 12 then ⟨6, some (recordOf ⟨.sensorFault, 3⟩ .dormant 801), none⟩
    else if i = 30 then ⟨2, some (recordOf ⟨.rakeHeld, 2⟩ .dormant 845), none⟩
    else ⟨1, some (recordOf ⟨.panelPosted, 100 + i⟩ .acked i), none⟩
  raisedSinceClear := 212, changeOrder := 900 }

def stormState : State := { State.reset with table := stormTable }

/-- The same with no DORMANT record left: saturated. -/
def fullState : State := stormState.onTable fun t => { t with
  slots := (t.slots.set 12 ⟨7, some (recordOf ⟨.pumpTrip, 4⟩ .raised 901), none⟩).set 30
    ⟨3, some (recordOf ⟨.spilling, 1⟩ .raised 902), none⟩ }

/-- A pump in AUTO at rest, and one RUNNING with its claim. -/
def idlePump : Pump :=
  { State.reset.pumps.a1 with selector := .auto, auto := ⟨true, true, none⟩, seq := .idle }

def runningPump : Pump :=
  { idlePump with seq := .running, contactor := true, claim := some 8, called := true, feedback := ⟨true, true, none⟩ }

/-- Mains present, pump 3 RUNNING, the other pumps OFF, both rakes IDLE and homed. -/
def duty3 : State := { State.reset with
  pumps := { State.reset.pumps with a3 := runningPump }
  duty := { State.reset.duty with wanted := 1 }
  power := { State.reset.power with mainsOk := ⟨true, true, none⟩, source := .mains, queue := [] }
  screens := State.reset.screens.map fun a => { a with rake := .idle, homed := true, op := .none } }

/-! The manual's worked examples -/

/-- Scaling examples of section 1.2. -/
theorem test_scaling_examples :
    [600, 700, 2048, 4079, 4080].map (scaled? 0 6000) = [none, some 0, some 2250, some 5970, none] ∧
      scaled? 1200 6000 2048 = some 3450 ∧ scaled? 1200 6000 4079 = some 7170 := by decide +kernel

/-- The factory table of section 2.2. -/
theorem test_volume_examples :
    [0, 750, 2310, 2350, 6000, 6120].map Settings.factory.volumeAt =
      [(0, false), (32500, false), (126700, false), (129500, false), (445000, false), (445000, true)] := by
  decide +kernel

/-- The factory curve of section 2.4. -/
theorem test_curve_examples :
    [750, 755, 2500, 3999, 4000].map (Settings.factory.flowAt .i1) = [840, 840, 610, 1, 0] := by decide +kernel

/-- The inflow examples of section 2.5. -/
theorem test_inflow_examples :
    [(126700, 129500), (129500, 126700), (129500, 126697), (129500, 125500)].map
      (fun x => inflowOf x.1 x.2 2 1680) = [3080, 280, 279, 0] := by decide +kernel

/-- The weir examples of section 2.7. -/
theorem test_weir_examples :
    root 20480 = 143 ∧ root 38400 = 195 ∧ weirFlow 477 80 143 = 83 ∧ weirFlow 477 150 195 = 212 := by decide +kernel

/-- Effective levels with drawdown, section 3.6. -/
theorem test_drawdown_levels :
    Ix6.all.map (fun k => (Settings.factory.effectiveStart 2000 k, Settings.factory.effectiveStop 2000 k)) =
      [(1050, 1000), (1050, 1000), (1050, 1000), (1050, 1000), (1050, 1000), (1300, 1000)] := by decide +kernel

/-- The worked period of section 2.11. -/
theorem test_worked_period :
    let ch := fun v : Nat => { State.reset.level.channels.a1 with period := .valid, held := some v }
    let fed := fun q : Pump => { q with feedback := ⟨true, true, none⟩ }
    let s : State := { State.reset with
      level := { State.reset.level with
        wellLevel := some 2350, mode := .level
        channels := ⟨ch 2480, ch 2350, ch 0, ch 2350, ch 2350, ch 3100⟩ }
      balance := { State.reset.balance with vPrev := some 126700, cls := .wet }
      pumps := { State.reset.pumps with a1 := fed State.reset.pumps.a1, a2 := fed State.reset.pumps.a2 } }
    let t := balancePeriodEnd 2 s
    t.balance.volume = some 129500 ∧ t.balance.head = 750 ∧ t.balance.inflow = 3080 ∧ t.balance.cls = .storm ∧
      t.pumps.toList.map Pump.flow = [840, 840, 0, 0, 0, 0] ∧
      t.balance.weirs.a1.tally = ⟨166, 2, 1, 83, false⟩ ∧ t.balance.weirs.a1.spill = .spilling := by decide +kernel

/-- Steps 1 and 3 of section 7.12: the older DORMANT record is displaced; with none left the raise waits and slot 0 is
seated. -/
theorem test_storm_displaces_the_oldest :
    ((raise ⟨.pumpTrip, 4⟩ .major [0] stormState).table.slot 12).gen = 7 ∧
      ((raise ⟨.pumpTrip, 4⟩ .major [0] stormState).table.slot 12).record.map Record.changeOrder = some 901 ∧
      (raise ⟨.pumpTrip, 4⟩ .major [0] stormState).table.raisedSinceClear = 213 := by decide +kernel

theorem test_storm_saturates :
    let t := conclude (raise ⟨.pumpSeal, 2⟩ .minor [] fullState)
    t.table.waiting.map Waiting.key = [⟨.pumpSeal, 2⟩] ∧ (t.table.slot 0).gen = 4 ∧
      t.table.suppressed = ⟨0, 1, 0, 0⟩ ∧ t.table.seatedCount = 48 := by decide +kernel

/-- The worked check of section 12.5. -/
theorem test_worked_check : crc [0x31, 0x32, 0x33, 0x34, 0x35, 0x36, 0x37, 0x38, 0x39] = 0x29B1 := by decide +kernel

/-- Image lengths of section 12.3. -/
theorem test_image_lengths :
    (summaryImage State.reset).length = 92 ∧ (screenImage .i1 State.reset).length = 39 ∧
      (pumpImage .i1 State.reset).length = 20 ∧ (channelsImage State.reset.level).length = 54 := by decide +kernel

/-- Two ticks of section 11.4: the 100th tick of a second carries. -/
theorem test_tick_carries :
    (Stamp.next ⟨7, 98⟩, Stamp.next ⟨7, 99⟩, Stamp.next ⟨4294967295, 99⟩) = (⟨7, 99⟩, ⟨8, 0⟩, ⟨0, 0⟩) := by decide

/-- A QUIET-ASK and a HEARTBEAT of section 10.11: 18 and 6 periods in QUIET; the credits come back up to the grant. -/
theorem test_quiet_timers :
    let s := joined.onTable fun _ => Table.cold
    (after (.quietAsk 11 []) s).link.state = .quiet ∧
      (after (.quietAsk 11 []) s).link.heartbeatTimer = some 36000 ∧
      (after (.quietAsk 11 []) s).link.statusTimer = some 12000 := by decide +kernel

/-- The rejected commit of section 11.5. -/
theorem test_rejected_commit :
    (after .commitSettings (after (.dataRead false) (after (.loadSettings 1 15 4600) State.reset))).port.phase =
      .result [12, 1, 16] := by decide +kernel

/-! Witnesses: for each statement with hypotheses, concrete states and operands that meet them, clause by clause -/

theorem test_witness_StepRunsFrontCommand :
    ({ State.reset with pending := [.flashPhase, .clockTick] }).pending = .flashPhase :: [.clockTick] ∧
      State.reset.pending = [] := ⟨rfl, rfl⟩

theorem ladder_reset : LadderOk State.reset.duty.ladder := List.Perm.refl _

theorem ladder_duty3 : LadderOk duty3.duty.ladder := List.Perm.refl _

theorem ladder_turned : LadderOk [.i2, .i3, .i4, .i5, .i6, .i1] := by
  show List.Perm _ _
  decide

/-- One command of the queue runs on a state with claims, motors, records and credits. -/
def busy (i : Instr) : State := { duty3 with
  screens := { duty3.screens with
    a1 := { duty3.screens.a1 with rake := .descending, op := .cycle, claim := some 3, down := true, legLimit := 4200 } }
  link := joined.link, pending := [i] }

theorem test_witness_StepKeepsLadderAndClaims :
    LadderOk (busy (.pulse .i1)).duty.ladder ∧ PowerOk (busy (.pulse .i1)) ∧
      ∃ t, step (busy (.pulse .i1)) = .next t :=
  ⟨List.Perm.refl _, ⟨List.Perm.refl _, by decide +kernel⟩, _, rfl⟩

theorem test_witness_StepKeepsMotorsExclusive :
    MotorsExclusive (busy (.pulse .i1)) ∧ ∃ t, step (busy (.pulse .i1)) = .next t :=
  ⟨fun n => by cases n <;> exact (by decide), _, rfl⟩

theorem test_witness_StepKeepsTableSizes :
    TableOk fullState.table ∧ ∃ t, step { fullState with pending := [.returnCondition 1] } = .next t :=
  ⟨⟨by decide +kernel, by decide⟩, _, rfl⟩

theorem test_witness_StepKeepsAttnFormed :
    AttnOk (busy .readAttention).port ∧ ∃ t, step (busy .readAttention) = .next t := ⟨rfl, _, rfl⟩

theorem test_witness_StepKeepsCreditsBounded :
    CreditsOk (busy (.heartbeat [2])).link ∧ (busy (.heartbeat [2])).link.credits = 2 ∧
      ∃ t, step (busy (.heartbeat [2])) = .next t :=
  ⟨⟨by decide, by decide, by decide⟩, rfl, _, rfl⟩

theorem test_witness_EndOfEventShedsAndForms : LadderOk duty3.duty.ladder := ladder_duty3

theorem test_witness_UptimeAndStoreImageMove :
    (∃ t, exec .flashPhase State.reset = .next t) ∧ Instr.flashPhase ≠ .clockTick ∧ Instr.flashPhase ≠ .coldStart ∧
      Instr.flashPhase ≠ .resetTimerExpiry ∧ Instr.flashPhase ≠ .storeWriteReport true ∧
      Instr.storeWriteReport false ≠ .storeWriteReport true := by
  exact ⟨⟨_, rfl⟩, by decide, by decide, by decide, by decide, by decide⟩

theorem test_witness_ColdStartValues :
    let s := State.reset.onPort fun p => { p with resetLine := true, resetTimer := some 0 }
    s.port.resetLine = true ∧ s.port.resetTimer = some 0 := ⟨rfl, rfl⟩

/-- A line made whose debounce timer has no time left. -/
def due : Debounced := ⟨true, false, some 0⟩

theorem test_witness_DebouncedLines :
    (((State.reset.onLevel (Level.onFloat .high fun _ => due)).level.float .high).timer = some 0) ∧
      (((State.reset.onPump .i3 (Pump.onLine .auto fun _ => due)).pump .i3).line .auto).timer = some 0 ∧
      (((State.reset.onPump .i6 (Pump.onInput .thermal fun _ => due)).pump .i6).input .thermal).timer = some 0 ∧
      ((State.reset.onPower (Power.onLine .genOn fun _ => due)).power.line .genOn).timer = some 0 ∧
      (((State.reset.onScreen .i2 (Screen.onInput .home fun _ => due)).screen .i2).input .home).timer = some 0 :=
  ⟨rfl, rfl, rfl, rfl, rfl⟩

/-- A round is due; the given number of rounds of the period are complete. -/
def roundDue (rounds : Nat) : State := State.reset.onLevel fun l => { l with roundTimer := some 0, rounds := rounds }

theorem test_witness_RoundsAccumulate :
    (roundDue 18).level.roundTimer = some 0 ∧ (roundDue 18).level.rounds + 1 < 10 * (roundDue 18).level.periodSecs ∧
      2007 ≤ (2007 : BitVec 12).toNat ∧ (2007 : BitVec 12).toNat ≤ 2089 ∧ 2007 ≤ (2089 : BitVec 12).toNat ∧
      (2089 : BitVec 12).toNat ≤ 2089 ∧ ((2006 : BitVec 12).toNat < 2007 ∨ 2089 < (2006 : BitVec 12).toNat) ∧
      ((2090 : BitVec 12).toNat < 2007 ∨ 2089 < (2090 : BitVec 12).toNat) := by decide

theorem test_witness_PeriodEndFormsLevels :
    (roundDue 19).level.roundTimer = some 0 ∧
      10 * (roundDue 19).level.periodSecs ≤ (roundDue 19).level.rounds + 1 := by decide

/-- A well level, with the table's lowest point at 100 mm. -/
def atLevel (n : Nat) : State := (set1 2 1 100 State.reset).onLevel fun l => { l with wellLevel := some n }

theorem test_witness_StationComputation_levels :
    (∀ j, j < 7 → (atLevel 0).running.tableLevel j < (atLevel 0).running.tableLevel (j + 1)) ∧
      [99, 100, 499, 500, 5999, 6000, 6001].map (fun n => (atLevel n).level.wellLevel) =
        [some 99, some 100, some 499, some 500, some 5999, some 6000, some 6001] ∧
      (atLevel 0).running.tableLevel 0 = 100 ∧ (atLevel 0).running.tableLevel 1 = 500 ∧
      (atLevel 0).running.tableLevel 7 = 6000 := by decide +kernel

theorem test_witness_StationComputation_inflow :
    let s := (atLevel 2350).onBalance fun b => { b with vPrev := some 126700 }
    s.balance.vPrev = some 126700 ∧ (balancePeriodEnd 2 s).balance.volume.isSome = true ∧
      (atLevel 2350).balance.vPrev = none := by decide +kernel

theorem test_witness_StationComputation_curve :
    let c := Settings.factory.put 4 2 10
    (∀ j, j < 4 → c.curveHead .i1 j < c.curveHead .i1 (j + 1) ∧ c.curveFlow .i1 (j + 1) ≤ c.curveFlow .i1 j) ∧
      c.curveHead .i1 0 = 10 ∧ c.curveHead .i1 1 = 1000 ∧ c.curveHead .i1 4 = 4000 ∧
      (duty3.pump .i3).feedback.state = true ∧ (duty3.pump .i1).feedback.state = false := by decide +kernel

theorem test_witness_InflowClassMoves :
    let s := fun c => State.reset.onBalance fun b => { b with cls := c, inflowStale := false }
    (s .dry).balance.inflowStale = false ∧ (s .dry).balance.cls = .dry ∧ (s .wet).balance.cls = .wet ∧
      (s .storm).balance.cls = .storm := ⟨rfl, rfl, rfl, rfl⟩

theorem test_witness_WeirsAndSpills_flow :
    let ch := { State.reset.level.channels.a1 with period := .valid, held := some 2480 }
    let s := State.reset.onLevel fun l => { l with channels := { l.channels with a1 := ch } }
    weirLevel? s .i1 = some 2480 ∧ weirLevel? State.reset .i1 = none := by decide +kernel

theorem test_witness_WeirsAndSpills_stage :
    let x : Weir := State.reset.balance.weirs.a1
    x.status = .notComputed ∧ ({ x with status := .current }).status ≠ .notComputed ∧
      ({ x with status := .current }).flow = 0 ∧ ({ x with status := .current, flow := 83 }).flow ≠ 0 := by decide

theorem test_witness_WeirsAndSpills_separation :
    let s := State.reset.onBalance fun b =>
      { b with weirs := b.weirs.modify .i2 fun x => { x with spill := .settling, separation := some 0 } }
    (s.balance.weirs.get .i2).separation = some 0 ∧ (s.balance.weirs.get .i2).spill = .settling ∧ Ix2.i1 ≠ .i2 := by
  decide

theorem test_witness_PositionsAndWanted :
    let s := State.reset.onLevel (Level.onFloat .highHigh fun _ => due)
    s.level.mode = .float ∧ (s.level.float .highHigh).timer = some 0 := ⟨rfl, rfl⟩

theorem test_witness_CalledSet :
    LadderOk duty3.duty.ladder ∧ .i3 ∈ calledSet duty3 ∧ (duty3.pump .i3).onDuty = true := by
  exact ⟨ladder_duty3, by decide +kernel, by decide⟩

theorem test_witness_CalledSet_fresh :
    let s := { (duty3.onPump .i3 fun _ => idlePump) with duty := { duty3.duty with wanted := 1 } }
    .i3 ∈ calledSet s ∧ (s.pump .i3).onDuty = false := by decide +kernel

theorem test_witness_DutyTimers :
    let s := (State.reset.onPump .i1 fun q => { q with history := [⟨0, 0⟩] }).onClock fun c =>
      { c with uptime := ⟨3600, 0⟩ }
    let h := duty3.onPump .i3 fun q => { q with headTimer := some 0 }
    (s.pump .i1).history = ⟨0, 0⟩ :: [] ∧ 360000 ≤ ticksSince s.clock.uptime ⟨0, 0⟩ ∧
      (h.pump .i3).headTimer = some 0 ∧ (h.pump .i3).seq = .running ∧
      (State.reset.onDuty fun d => { d with drawdownTimer := some 0 }).duty.drawdownTimer = some 0 ∧
      100 ≤ ((State.reset.onPump .i2 fun q => { q with runTicks := 100 }).pump .i2).runTicks := by decide

theorem test_witness_DutyPanelCommands_order :
    State.reset.portIdle ∧ LadderOk [.i2, .i3, .i4, .i5, .i6, .i1] ∧
      (⟨2, 3, 4, 5, 6, 1⟩ : Six Byte).toList.map BitVec.toNat =
        ([.i2, .i3, .i4, .i5, .i6, .i1] : List Ix6).map Ix6.num ∧
      ([.i2, .i3, .i4, .i5, .i6, .i1] : List Ix6) ≠ State.reset.duty.ladder ∧
      (⟨1, 2, 3, 4, 5, 6⟩ : Six Byte).toList.map BitVec.toNat = State.reset.duty.ladder.map Ix6.num ∧
      ∀ l : List Ix6, LadderOk l →
        (⟨1, 1, 2, 3, 4, 5⟩ : Six Byte).toList.map BitVec.toNat ≠ l.map Ix6.num := by
  refine ⟨⟨rfl, rfl⟩, ladder_turned, by decide, by decide, by decide, fun l h e => ?_⟩
  have := h.map Ix6.num
  rw [← e] at this
  exact absurd this (by decide)

theorem test_witness_DutyPanelCommands_pumps :
    State.reset.portIdle ∧ (1 : Byte).toNat = Ix6.i1.num ∧ (6 : Byte).toNat = Ix6.i6.num ∧
      (State.reset.pump .i6).panelMark = false ∧
      ((State.reset.onPump .i6 fun q => { q with panelMark := true }).pump .i6).panelMark = true ∧
      (∀ p : Ix6, (0 : Byte).toNat ≠ p.num) ∧ (∀ p : Ix6, (7 : Byte).toNat ≠ p.num) ∧
      (State.reset.pump .i1).seq = .off ∧ (duty3.pump .i3).seq ≠ .off ∧ (duty3.pump .i3).seq ≠ .idle := by
  refine ⟨⟨rfl, rfl⟩, rfl, rfl, rfl, rfl, ?_, ?_, rfl, by decide, by decide⟩ <;> intro p <;> cases p <;> decide

theorem test_witness_GrantAndStopEffects :
    Ix6.i2 ≠ .i3 ∧ duty3.running.rotationFixed = false ∧ (set1 3 14 1 duty3).running.rotationFixed = true ∧
      StopReason.lockout ≠ .callWithdrawn ∧
      (State.reset.onPower fun w => { w with stagger := some 0 }).power.stagger = some 0 := by decide +kernel

theorem test_witness_SequencerTimers :
    let s := fun q : Pump => duty3.onPump .i3 fun _ => q
    let stopping := { idlePump with seq := .stopping, stopWindow := some 0, runDown := some 500 }
    ((s { runningPump with seq := .starting, startWindow := some 0 }).pump .i3).startWindow = some 0 ∧
      ((s { runningPump with minRun := some 0 }).pump .i3).minRun = some 0 ∧
      ((s stopping).pump .i3).stopWindow = some 0 ∧ ((s stopping).pump .i3).seq = .stopping ∧
      ((s stopping).pump .i3).feedback.state = false ∧ ((s stopping).pump .i3).runDown ≠ none ∧
      ((s { stopping with runDown := none }).pump .i3).runDown = none ∧
      ((s { stopping with feedback := ⟨true, true, none⟩ }).pump .i3).feedback.state = true ∧
      ((s { stopping with runDown := some 0, stopDone := true }).pump .i3).runDown = some 0 ∧
      ((s { stopping with runDown := some 0 }).pump .i3).stopDone = false := by decide

theorem test_witness_FeedbackAndSelector :
    (∀ x : Seq, ((duty3.onPump .i3 fun q => { q with seq := x }).pump .i3).seq = x) ∧
      (Selector.off = .off ∨ Selector.off = .hand) ∧ (Selector.hand = .off ∨ Selector.hand = .hand) :=
  ⟨fun _ => rfl, .inl rfl, .inr rfl⟩

theorem test_witness_ResetLockout :
    State.reset.portIdle ∧ (State.reset.pump .i1).locks = ⟨false, false, false, false, false⟩ ∧
      ((State.reset.onPump .i1 fun q => { q with locks := { q.locks with thermal := true } }).pump .i1).locks.thermal =
        true ∧
      (State.reset.screen .i2).locks = ⟨false, false, false⟩ ∧
      ((State.reset.onScreen .i2 fun a => { a with locks := { a.locks with jam := true } }).screen .i2).locks.jam =
        true ∧
      (∀ p : Ix6, ¬((3 : Byte) = 3 ∧ (7 : Byte).toNat = p.num)) ∧
      ∀ m : Ix2, ¬((3 : Byte) = 4 ∧ (7 : Byte).toNat = m.num) := by
  refine ⟨⟨rfl, rfl⟩, rfl, rfl, rfl, rfl, ?_, ?_⟩ <;> intro p <;> cases p <;> decide

theorem test_witness_SourceAndTransfer :
    let s := State.reset.onPower (Power.onLine .mainsOk fun _ => due)
    let r := State.reset.onPower (Power.onLine .transferReq fun _ => due)
    let d := State.reset.onPower fun w => { w with transferring := true, transferReq := ⟨false, true, some 0⟩ }
    s.power.transferring = false ∧ (s.power.line .mainsOk).timer = some 0 ∧ r.power.transferReq.timer = some 0 ∧
      r.power.transferReq.line = true ∧ r.power.transferring = false ∧ d.power.transferReq.timer = some 0 ∧
      d.power.transferReq.line = false ∧ d.power.transferring = true ∧
      ((d.onPower (Power.onLine .genOn fun _ => due)).power.line .genOn).timer = some 0 := by decide

theorem test_witness_ClaimQueueOrder :
    let s := { State.reset with screens := State.reset.screens.modify .i1 fun a => { a with blocked := true } }
    let e := s.onPower fun w => { w with queue := [.pump .i4] }
    .rake .i1 ∈ s.power.queue ∧ Claimant.pump .i1 ∉ s.power.queue ∧ isBlockedRake s (.pump .i1) = false ∧
      Claimant.rake .i1 ∉ e.power.queue ∧ isBlockedRake e (.rake .i1) = true ∧ s.power.queue.Nodup := by decide

/-- Pump 3 RUNNING, its claim held, as in `duty3`, with its call withdrawn. -/
def uncalled3 : State := duty3.onPump .i3 fun q => { q with called := false, minRun := none }

theorem test_witness_ClaimQueueOrder_moves :
    let stops := fun x => (uncalled3.pump x).seq = .running ∧ (uncalled3.pump x).called = false ∧
      (uncalled3.pump x).minRun = none
    let dark := duty3.onPower fun w => { w with source := .none }
    0 ≤ free uncalled3 ∧ uncalled3.duty.ladder = [.i1, .i2] ++ .i3 :: [.i4, .i5, .i6] ∧ stops .i3 ∧
      (∀ x ∈ ([.i1, .i2] : List Ix6), ¬stops x) ∧ free dark < 0 ∧ claimSum dark ≠ 0 ∧ LadderOk dark.duty.ladder ∧
      ∀ p, (dark.pump p).claim ≠ none → (dark.pump p).seq = .starting ∨ (dark.pump p).seq = .running := by
  refine ⟨by decide +kernel, rfl, by decide, by decide, by decide +kernel, by decide +kernel, .refl _, fun p => ?_⟩
  cases p <;> decide

theorem test_witness_ClaimQueueOrder_rests :
    let s := fun (i j : Bool) (q : List Claimant) => { duty3 with
      power := { duty3.power with queue := q }
      screens := ⟨{ duty3.screens.a1 with untested := i }, { duty3.screens.a2 with untested := j }⟩ }
    let still := fun (i j : Bool) (q : List Claimant) => 0 ≤ free (s i j q) ∧
      (∀ x, ¬(((s i j q).pump x).seq = .running ∧ ((s i j q).pump x).called = false ∧ ((s i j q).pump x).minRun = none)) ∧
      (∀ x, ¬(((s i j q).pump x).seq = .queued ∧ ((s i j q).pump x).called = false)) ∧
      ∀ x, ¬(((s i j q).pump x).seq = .idle ∧ ((s i j q).pump x).called = true)
    still true true [] ∧ still false true [] ∧ still true true [.rake .i1] ∧
      grantable (s true true [.rake .i1]) (.rake .i1) = true := by
  refine ⟨⟨?_, ?_, ?_, ?_⟩, ⟨?_, ?_, ?_, ?_⟩, ⟨?_, ?_, ?_, ?_⟩, ?_⟩ <;>
    first | decide +kernel | (intro x; cases x <;> decide)

theorem test_witness_ClaimQueueOrder_kept :
    QueueOk { duty3 with pending := [.silence] } ∧ ∃ t, step { duty3 with pending := [.silence] } = .next t := by
  refine ⟨⟨.nil, ?_, ?_, ?_, ?_, ?_, ?_, ?_, ?_⟩, _, rfl⟩ <;> intro i <;> cases i <;> decide

theorem test_witness_RakeCommands :
    State.reset.portIdle ∧ (1 : Byte).toNat = Ix2.i1.num ∧ (∀ n : Ix2, (0 : Byte).toNat ≠ n.num) ∧
      (∀ n : Ix2, (3 : Byte).toNat ≠ n.num) ∧ (State.reset.screen .i1).homed = false ∧
      ((State.reset.onScreen .i1 fun a => { a with rake := .locked }).screen .i1).rake = .locked ∧
      ((State.reset.onScreen .i1 fun a => { a with rake := .held }).screen .i1).rake = .held ∧
      (duty3.screen .i1).rake = .idle ∧ (duty3.screen .i1).homed = true ∧ duty3.running.maxTravel .i1 < 4001 ∧
      4000 ≤ duty3.running.maxTravel .i1 ∧ 0 < 1 ∧ 5 < 6 ∧ 5 ≤ 5 := by
  refine ⟨⟨rfl, rfl⟩, rfl, ?_, ?_, rfl, rfl, rfl, rfl, rfl, by decide +kernel, by decide +kernel, by decide, by decide,
    by decide⟩ <;> intro n <;> cases n <;> decide

theorem test_witness_RakeMotion_pulse :
    ((duty3.screen .i1).up = false ∧ (duty3.screen .i1).down = false) ∧
      ((busy .silence).screen .i1).down = true ∧ ((busy .silence).screen .i1).up = false ∧
      (((busy .silence).onScreen .i1 fun a => { a with up := true, down := false }).screen .i1).up = true := by decide

theorem test_witness_RakeMotion_timers :
    let s := fun (st : RakeState) (op : Operation) => duty3.onScreen .i1 fun a =>
      { a with rake := st, op := op, dwell := some 0, jamTimer := some 0, reverse := some 0 }
    ((s .gripping .cycle).screen .i1).dwell = some 0 ∧ ((s .gripping .cycle).screen .i1).rake = .gripping ∧
      ((s .discharging .cycle).screen .i1).rake = .discharging ∧
      ((s .discharging (.finish 0)).screen .i1).op = .finish 0 ∧
      ((s .discharging (.finish 4)).screen .i1).op = .finish (3 + 1) ∧
      ((s .descending .cycle).screen .i1).jamTimer = some 0 ∧ ((s .descending .cycle).screen .i1).rake ≠ .reversing ∧
      ((s .descending .cycle).screen .i1).retries < (s .descending .cycle).running.jamRetries .i1 ∧
      (s .descending .cycle).running.jamRetries .i1 ≤
        (((s .descending .cycle).onScreen .i1 fun a => { a with retries := 3 }).screen .i1).retries ∧
      ((s .reversing .cycle).screen .i1).reverse = some 0 ∧ ((s .reversing .cycle).screen .i1).rake = .reversing := by
  decide +kernel

theorem test_witness_RakeLockoutAndCompletion :
    let c : Completion := ⟨false, 1, .jammed, 2400, 0, ⟨0, 0⟩⟩
    (duty3.screen .i1).rake ≠ .locked ∧ (State.reset.screen .i1).rake = .waiting ∧
      ((duty3.onScreen .i1 fun a => { a with rake := .locked }).screen .i1).rake = .locked ∧ Ix2.i2 ≠ .i1 ∧
      duty3.port.phase = .idle ∧ duty3.port.resetLine = false ∧ (2 : Byte).toNat = Ix2.i2.num ∧
      ((duty3.onScreen .i2 fun a => { a with completion := some c }).screen .i2).completion = some c ∧
      (duty3.screen .i2).completion = none := by decide

theorem test_witness_RaisesOnTheTable_seated :
    State.reset.table.seatedAt? ⟨.mainsFail, 0⟩ = some 1 ∧ (State.reset.table.slot 1).record.isSome = true ∧
      stormState.table.seatedAt? ⟨.panelPosted, 147⟩ = some 47 ∧ 2 ≠ 1 := by decide +kernel

theorem test_witness_RaisesOnTheTable_vacant :
    TableOk Table.cold ∧ Table.cold.seatedAt? ⟨.pumpTrip, 4⟩ = none ∧ Table.cold.waitsAt? ⟨.pumpTrip, 4⟩ = none ∧
      (Table.cold.slot 1).record = none ∧ ∀ j, 1 ≤ j → j < 1 → (Table.cold.slot j).record ≠ none :=
  ⟨⟨by decide, by decide⟩, by decide +kernel, rfl, rfl, fun _ _ _ => by omega⟩

theorem test_witness_RaisesOnTheTable_displaces :
    TableOk stormTable ∧ stormTable.seatedAt? ⟨.pumpTrip, 4⟩ = none ∧ stormTable.waitsAt? ⟨.pumpTrip, 4⟩ = none ∧
      (∀ j, j < 48 → 1 ≤ j → (stormTable.slot j).record.isSome = true) ∧
      (stormTable.slot 12).record.map Record.state = some .dormant ∧
      ∀ j, j < 48 → j ≠ 12 → (stormTable.slot j).record.all (fun q => q.state ≠ .dormant || 801 < q.changeOrder) = true :=
  ⟨⟨by decide +kernel, by decide⟩, by decide +kernel, rfl, by decide +kernel, by decide +kernel, by decide +kernel⟩

/-- A key that waits, of a severity. -/
def waits (n : Nat) (v : Severity) : Waiting := ⟨⟨.panelPosted, n⟩, v, [], ⟨0, 0⟩⟩

/-- The full table with keys waiting. -/
def waiting (l : List Waiting) : State := fullState.onTable fun t => { t with waiting := l }

theorem test_witness_RaisesOnTheTable_waits :
    let l := List.replicate 15 (waits 1 .major)
    let k : Key := ⟨.pumpSeal, 2⟩
    fullState.table.seatedAt? k = none ∧ fullState.table.waitsAt? k = none ∧ fullState.table.place? = none ∧
      (waiting l).table.waiting.length < 16 ∧ 16 ≤ (waiting (l ++ [waits 2 .advisory])).table.waiting.length ∧
      (waits 2 .advisory).severity.code < Severity.minor.code ∧
      Severity.minor.code ≤ (waits 2 .minor).severity.code ∧
      (waiting [⟨k, .minor, [], ⟨0, 0⟩⟩]).table.waitsAt? k ≠ none ∧
      (waiting [⟨k, .minor, [], ⟨0, 0⟩⟩]).table.seatedAt? k = none := by decide +kernel

/-- The reset state with a record of STORM in slot 5, generation 4. -/
def stormSeated (st : RecState) : State := seatAt 5 ⟨4, some (recordOf ⟨.storm, 0⟩ st 7), none⟩ State.reset

theorem test_witness_ReturnMovesRecord (st : RecState) :
    (stormSeated st).table.seatedAt? ⟨.storm, 0⟩ = some 5 ∧
      (stormSeated st).table.slot 5 = ⟨4, some (recordOf ⟨.storm, 0⟩ st 7), none⟩ ∧
      (recordOf ⟨.storm, 0⟩ st 7).state = st ∧ (stormSeated st).table.waiting = [] ∧
      State.reset.table.seatedAt? ⟨.storm, 0⟩ = none := by
  cases st <;> exact ⟨by decide +kernel, rfl, rfl, rfl, by decide +kernel⟩

theorem test_witness_RaisesOnTheTable_lowest :
    let t := (stormSeated .raised).table
    let storm := Change.edge ⟨.storm, 0, none⟩
    let leak := Change.edge ⟨.pumpSeal, 1, some []⟩
    t.changeSlot leak = 3 ∧ t.changeSlot storm = 5 ∧ t.changeSlot (.edge ⟨.pumpSeal, 1, none⟩) = 48 ∧
      t.changeSlot (.unshelve 5) = 5 ∧
      t.takeLowest [storm, leak, .unshelve 5] = some (leak, [storm, .unshelve 5]) ∧
      fullState.table.changeSlot leak = 0 := by decide +kernel

/-- R18, R97, R123: STORM in slot 5 precedes SPILLING, which takes slot 3, the lowest vacant one; SCREEN-BLOCKED goes by its
own slot. -/
theorem test_stages_keep_their_order :
    let after := fun i => offerStages [[⟨.storm, 0, none⟩], [⟨.spilling, 1, some [0, 9]⟩], []] [⟨.screenBlocked, 1, none⟩]
      (seatAt i ⟨2, some (recordOf ⟨.screenBlocked, 1⟩ .raised 8), none⟩ (stormSeated .raised))
    let orders := fun i => [5, 3, i].map fun j => ((after i).table.slot j).record.map Record.changeOrder
    orders 4 = [some 4, some 5, some 3] ∧ orders 9 = [some 3, some 4, some 5] := by decide +kernel

/-- R123: a raise that takes vacant slot 3 goes before a return in slot 5, and a second raise, which then takes slot 4, too. -/
theorem test_seatings_go_by_their_slots :
    let t := offerEdges [⟨.storm, 0, none⟩, ⟨.pumpSeal, 1, some []⟩, ⟨.pumpSeal, 2, some []⟩] (stormSeated .raised)
    [3, 4, 5].map (fun j => (t.table.slot j).record.map fun r => (r.key.number, r.changeOrder)) =
      [some (1, 3), some (2, 4), some (0, 5)] := by decide +kernel

/-- R84, R85, R102: rake 1 ends its cycle with screen 1 BLOCKED. Its 3 units make up the 8 that pump 4 at the head needs, so
the pump is granted before the rake queues afresh. -/
theorem test_pump_between_strokes :
    let s := { duty3 with
      power := { duty3.power with queue := [.pump .i4] }
      duty := { duty3.duty with wanted := 2 }
      pumps := { duty3.pumps with a4 := { idlePump with seq := .queued, called := true } }
      store := { duty3.store with running := duty3.store.running.put 5 1 17 }
      screens := duty3.screens.modify .i1 fun a => { a with
        blocked := true, rake := .discharging, op := .cycle, claim := some 3, dwell := some 0 } }
    let t := after (.dischargeDwellExpiry .i1) s
    free s = 6 ∧ (t.pump .i4).seq = .starting ∧ (t.screen .i1).rake = .waiting ∧ t.power.queue = [.rake .i1] ∧
      (t.screen .i1).untested = false := by decide +kernel

theorem test_witness_AcknowledgeAndRetire :
    47 < 48 ∧ 47 ≤ 47 ∧ (State.reset.table.slot 47).record = none ∧ ((stormSeated .raised).table.slot 5).gen ≠ 5 ∧
      ((stormSeated .raised).table.slot 5).gen = 4 ∧ State.reset.portIdle ∧ Admits 9 joined :=
  ⟨by decide, by decide, rfl, by decide, rfl, ⟨rfl, rfl⟩, ⟨.inl rfl, by decide, fun r h => by cases h⟩⟩

theorem test_witness_Shelves :
    let r := recordOf ⟨.storm, 0⟩ .raised 7
    let hidden := { r with shelved := true, shelf := some 0 }
    (stormSeated .raised).portIdle ∧ 47 < (48 : Byte).toNat ∧ (47 : Byte).toNat ≤ 47 ∧
      (State.reset.table.slot 47).record = none ∧ (stormSeated .raised).table.slot 5 = ⟨4, some r, none⟩ ∧
      r.key.kind.shelvable = true ∧ (stormSeated .raised).running.permitsShelving r.key.kind = true ∧
      (set1 7 18 0 (stormSeated .raised)).running.permitsShelving r.key.kind = false ∧
      (0 : BitVec 16).toNat < 1 ∧ 480 < (481 : BitVec 16).toNat ∧ 1 ≤ (1 : BitVec 16).toNat ∧
      (480 : BitVec 16).toNat ≤ 480 ∧ r.shelved = false ∧
      ((seatAt 5 ⟨4, some hidden, none⟩ State.reset).table.slot 5).record = some hidden ∧ hidden.shelved = true ∧
      hidden.shelf = some 0 :=
  ⟨⟨rfl, rfl⟩, by decide, by decide, rfl, rfl, by decide, by decide +kernel, by decide +kernel, by decide, by decide,
    by decide, by decide, rfl, rfl, rfl, rfl⟩

theorem test_witness_PanelConditions :
    let data : List Byte := [1, 2, 3, 4, 5, 6, 7, 8]
    State.reset.portIdle ∧ data.length = 8 ∧ 3 < (4 : Byte).toNat ∧ 8 < (9 : Byte).toNat ∧
      severityOf? (3 : Byte).toNat = some .critical ∧ (8 : Byte).toNat ≤ 8 ∧
      stormState.table.seatedAt? ⟨.panelPosted, (101 : Byte).toNat⟩ = some 1 ∧
      State.reset.table.seatedAt? ⟨.panelPosted, 7⟩ = none ∧ State.reset.table.waitsAt? ⟨.panelPosted, 7⟩ = none ∧
      State.reset.table.place? = some 3 ∧ fullState.table.seatedAt? ⟨.panelPosted, 7⟩ = none ∧
      fullState.table.place? = none := by
  refine ⟨⟨rfl, rfl⟩, ?_⟩
  decide +kernel

theorem test_witness_TableWideCommands :
    State.reset.portIdle ∧ (stormSeated .dormant).table.waiting = [] ∧ TableOk (stormSeated .dormant).table ∧
      3 < (4 : Byte).toNat ∧ 1 < (2 : Byte).toNat ∧ (8 < (9 : Byte).toNat ∧ (9 : Byte).toNat ≠ 255) ∧
      severityOf? (3 : Byte).toNat = some .critical ∧ classFilter? (8 : Byte).toNat ≠ none ∧
      classFilter? (255 : Byte).toNat = some none ∧ (1 : Byte).toNat ≤ 1 :=
  ⟨⟨rfl, rfl⟩, rfl, ⟨by decide +kernel, by decide⟩, by decide, by decide, by decide, by decide, by decide, by decide,
    by decide⟩

theorem test_witness_SilenceAndFlash :
    State.reset.portIdle ∧ hornDemand State.reset = true ∧ State.reset.ann.silence = false ∧
      hornDemand { State.reset with table := Table.cold } = false := ⟨⟨rfl, rfl⟩, by decide +kernel⟩

/-- The reset state with a result, or a stream, in hand. -/
def offering (ph : Phase) : State := State.reset.onPort fun p => { p with phase := ph, window := some 0 }

/-- A stream in hand, with the bytes it still offers. -/
def streamOf (maximum : Nat) (left : List Byte) : Stream := ⟨maximum, .advisory, 15, true, none, 2, 1, left, 0⟩

theorem test_witness_PanelExchange :
    State.reset.portIdle ∧ parameterCount? (0x32 : Byte).toNat = some ([5, 4] : List Byte).length ∧
      ([5] : List Byte).length < ([5, 4] : List Byte).length ∧ parameterCount? (0x04 : Byte).toNat = none ∧
      parameterCount? (0x01 : Byte).toNat = some 0 ∧ (offering (.parameters 0x32 [5])).port.phase = .parameters 0x32 [5] ∧
      (offering (.result [0])).port.phase = .result [0] ∧ (offering .executing).port.phase = .executing ∧
      (offering .executing).port.resetLine = false ∧
      (State.reset.onPort fun p => { p with resetLine := true }).port.resetLine = true :=
  ⟨⟨rfl, rfl⟩, by decide, by decide, by decide, by decide, rfl, rfl, rfl, rfl, rfl⟩

theorem test_witness_InvalidCommand :
    State.reset.portIdle ∧ parameterCount? (0x00 : Byte).toNat = none ∧ parameterCount? (0xFF : Byte).toNat = none ∧
      ([0x32] : List Byte) ≠ [] := ⟨⟨rfl, rfl⟩, by decide, by decide, by decide⟩

theorem test_witness_ProtocolFaults :
    (offering (.result [])).port.resetLine = false ∧ (offering (.result [])).port.phase = .result [] ∧
      (offering (.result [7])).port.phase = .result (7 :: []) ∧ State.reset.port.phase = .idle ∧
      (offering (.parameters 0x32 [])).port.phase = .parameters 0x32 [] ∧ (0x5B : Byte) ≠ 0x5A :=
  ⟨rfl, rfl, rfl, rfl, rfl, by decide⟩

theorem test_witness_RecordStream_command :
    State.reset.portIdle ∧ 47 < (48 : Byte).toNat ∧ 48 < (49 : Byte).toNat ∧ 3 < (4 : Byte).toNat ∧
      (0 : Byte).toNat = 0 ∧ 15 < (16 : Byte).toNat ∧ 1 < (2 : Byte).toNat ∧
      (8 < (9 : Byte).toNat ∧ (9 : Byte).toNat ≠ 255) ∧ severityOf? (0 : Byte).toNat = some .advisory ∧
      classFilter? (255 : Byte).toNat = some none ∧
      (State.reset.table.slot 1).record.any (fun r => (15 : Byte).toNat.testBit r.state.code) = true ∧
      (∀ j, j < 48 → 3 ≤ j → (State.reset.table.slot j).record = none) := by
  refine ⟨⟨rfl, rfl⟩, ?_⟩
  decide +kernel

theorem test_witness_RecordStream_read :
    (offering (.streaming (streamOf 0 [1, 2]))).port.phase = .streaming (streamOf 0 [1, 2]) ∧
      (offering (.streaming (streamOf 0 [1, 2]))).port.resetLine = false ∧ (streamOf 0 [1, 2]).left = 1 :: 2 :: [] ∧
      (streamOf 1 [1]).left = [1] ∧ (streamOf 1 [1]).maximum ≠ 0 ∧
      (streamOf 1 [1]).maximum ≤ (streamOf 1 [1]).delivered + 1 ∧
      (streamOf 2 [1]).delivered + 1 < (streamOf 2 [1]).maximum ∧
      (streamOf 0 [1]).next? State.reset.table = some 2 ∧
      ({ streamOf 0 [1] with nextSlot := 3 }).next? State.reset.table = none ∧
      (offering (.streaming (streamOf 0 [1, 2]))).port.window = some 0 := by
  refine ⟨rfl, rfl, rfl, rfl, by decide, by decide, by decide, by decide +kernel, by decide +kernel, rfl⟩

theorem test_witness_AttentionCommands :
    State.reset.portIdle ∧ (0x40 : Byte).getLsbD 6 = true ∧ (0x80 : Byte).getLsbD 7 = true ∧
      (0x3F : Byte).getLsbD 6 = false ∧ (0x3F : Byte).getLsbD 7 = false :=
  ⟨⟨rfl, rfl⟩, by decide, by decide, by decide, by decide⟩

theorem test_witness_PortResets :
    let s := State.reset.onPort fun p => { p with resetLine := true, resetTimer := some 1 }
    State.reset.portIdle ∧ s.port.resetLine = true ∧ s.port.resetTimer ≠ none ∧
      (s.onPort fun p => { p with resetTimer := none }).port.resetTimer = none :=
  ⟨⟨rfl, rfl⟩, rfl, by decide, rfl⟩

theorem test_witness_PanelReads :
    State.reset.portIdle ∧ (6 : Byte).toNat = Ix6.i6.num ∧ (∀ p : Ix6, (7 : Byte).toNat ≠ p.num) ∧
      (2 : Byte).toNat = Ix2.i2.num ∧ (∀ n : Ix2, (0 : Byte).toNat ≠ n.num) ∧
      (fieldRange? (1 : Byte).toNat (16 : Byte).toNat).isSome = true ∧ 1 < (2 : Byte).toNat ∧
      fieldRange? (1 : Byte).toNat (17 : Byte).toNat = none ∧
      key? (0 : Byte).toNat (0 : Byte).toNat (25 : Byte).toNat = none ∧
      key? (Kind.mainsFail.cls.code) 0 (Kind.mainsFail.code) = some ⟨.mainsFail, 0⟩ ∧
      State.reset.table.seatedAt? ⟨.mainsFail, 0⟩ = some 1 ∧ State.reset.table.seatedAt? ⟨.storm, 0⟩ = none ∧
      State.reset.table.waitsAt? ⟨.storm, 0⟩ = none ∧
      (waiting [waits 1 .major]).table.waitsAt? ⟨.panelPosted, 1⟩ = some 0 := by
  refine ⟨⟨rfl, rfl⟩, rfl, ?_, rfl, ?_, ?_⟩
  · intro p; cases p <;> decide
  · intro n; cases n <;> decide
  · decide +kernel

/-- Requests outstanding at the joined link. -/
def asked (tags : List Byte) : State := joined.onLink fun l => { l with requests := tags.map fun t => ⟨t, [], true⟩ }

theorem test_witness_RequestAdmission :
    (0x1A : Byte) ≠ 2 ∧ (0x1A : Byte) ≠ 3 ∧ (0x1A : Byte) ≠ 4 ∧ State.reset.link.state = .offline ∧
      joined.link.state = .online ∧ 4 ≤ (asked [1, 2, 3, 4]).link.requests.length ∧
      (asked [1, 2, 3]).link.requests.length < 4 ∧ (∃ r ∈ (asked [1, 2, 3]).link.requests, r.tag = 3) ∧
      Admits 9 (asked [1, 2, 3]) ∧ namesRequest 0x0F = false ∧ namesRequest 0x10 = true ∧ namesRequest 0x19 = true ∧
      namesRequest 0x1A = false ∧ ([1] : List Byte).length ≠ requestLength 0x10 :=
  ⟨by decide, by decide, by decide, rfl, rfl, by decide, by decide, ⟨⟨3, [], true⟩, by decide, rfl⟩,
    ⟨.inl rfl, by decide, by decide⟩, by decide, by decide, by decide, by decide, by decide⟩

theorem admits_joined (tag : Byte) : Admits tag joined := ⟨.inl rfl, by decide, fun r h => by cases h⟩

theorem test_witness_ReadingRequests :
    Admits 9 joined ∧ 47 < (48 : Byte).toNat ∧ (47 : Byte).toNat ≤ 47 ∧ (joined.table.slot 47).record = none ∧
      (joined.table.slot 1).record.isSome = true ∧ (joined.table.slot 1).gen = (1 : Byte).toNat ∧
      key? (0 : Byte).toNat 0 25 = none ∧
      key? (Kind.mainsFail.cls.code) 0 (Kind.mainsFail.code) = some ⟨.mainsFail, 0⟩ ∧
      joined.table.seatedAt? ⟨.mainsFail, 0⟩ = some 1 ∧ joined.table.seatedAt? ⟨.storm, 0⟩ = none ∧
      (0 : Byte).toNat < 1 ∧ 4 < (5 : Byte).toNat ∧ 1 ≤ (1 : Byte).toNat ∧ (4 : Byte).toNat ≤ 4 ∧
      (2 : Byte).toNat = Ix2.i2.num ∧ ∀ w : Ix2, (3 : Byte).toNat ≠ w.num := by
  refine ⟨admits_joined 9, by decide, by decide, rfl, rfl, rfl, by decide +kernel, by decide +kernel, by decide +kernel,
    by decide +kernel, by decide, by decide, by decide, by decide, rfl, ?_⟩
  intro w; cases w <;> decide

theorem test_witness_StationRequests :
    let drawn := joined.onDuty fun d => { d with drawdownTimer := some 600 }
    let level := joined.onLevel fun l => { l with mode := .level }
    Admits 9 joined ∧ (6 : Byte).toNat = Ix6.i6.num ∧ (joined.pump .i6).townMark = false ∧
      ((joined.onPump .i6 fun q => { q with townMark := true }).pump .i6).townMark = true ∧ 1 < (2 : Byte).toNat ∧
      (∀ p : Ix6, (0 : Byte).toNat ≠ p.num) ∧ joined.level.mode = .float ∧ level.level.mode = .level ∧
      level.duty.drawdownTimer = none ∧ drawn.duty.drawdownTimer ≠ none ∧ (1 : BitVec 16) ≠ 0 := by
  refine ⟨admits_joined 9, rfl, rfl, rfl, by decide, ?_, rfl, rfl, rfl, by decide, by decide⟩
  intro p; cases p <;> decide

theorem test_witness_QuietAndWake :
    let calm := { joined with table := Table.cold }
    let undone := fun s : State => s.table.records.any fun r =>
      decide (2 ≤ r.severity.code) && (r.state = .raised || r.state = .returned)
    Admits 9 joined ∧ joined.balance.cls = .dry ∧ (joined.onBalance fun b => { b with cls := .wet }).balance.cls ≠ .dry ∧
      undone joined.woken = true ∧ undone calm.woken = false ∧ calm.duty.drawdownTimer = none ∧
      calm.table.owing = [] ∧ (seatAt 5 ⟨4, none, some 7⟩ calm).table.owing ≠ [] ∧
      undone (seatAt 5 ⟨4, none, some 7⟩ calm).woken = false ∧
      (joined.onLink fun l => { l with state := .quiet }).link.state = .quiet ∧ joined.link.state = .online ∧
      State.reset.link.state = .offline := by
  refine ⟨admits_joined 9, ?_⟩
  decide +kernel

theorem test_witness_JoinAcceptAndHeartbeat :
    let s := joined.onLink fun l => { l with state := .joining }
    s.link.state = .joining ∧ (99 : Byte).toNat ≤ 99 ∧ 1 ≤ (1 : Byte).toNat ∧ (8 : Byte).toNat ≤ 8 ∧
      10 ≤ (10 : Byte).toNat ∧ (60 : Byte).toNat ≤ 60 ∧ 99 < (100 : Byte).toNat ∧ (0 : Byte).toNat < 1 ∧
      8 < (9 : Byte).toNat ∧ (9 : Byte).toNat < 10 ∧ 60 < (61 : Byte).toNat ∧ ([1] : List Byte).length ≠ 7 ∧
      joined.link.state = .online ∧ joined.link.credits + (0 : Byte).toNat ≤ joined.link.grant.getD 0 ∧
      joined.link.grant.getD 0 < joined.link.credits + (1 : Byte).toNat ∧ ([] : List Byte).length ≠ 1 ∧
      State.reset.link.state = .offline := by decide

theorem test_witness_LinkIsLost :
    let s := joined.onLink fun l => { l with heartbeatTimer := some 0 }
    s.link.heartbeatTimer = some 0 ∧ s.link.state = .online ∧
      (s.onDuty fun d => { d with drawdownTimer := some 5 }).duty.drawdownTimer ≠ none := by decide

theorem test_witness_LinkTimers :
    let s := fun st : LinkState => joined.onLink fun l => { l with
      state := st, offerTimer := some 0, statusTimer := some 0, lossTimer := some 0, sending := some ⟨5, 0, []⟩ }
    (s .joining).link.offerTimer = some 0 ∧ (s .joining).link.state = .joining ∧
      (s .online).link.statusTimer = some 0 ∧ (s .online).link.state = .online ∧ (s .quiet).link.state = .quiet ∧
      (s .lost).link.lossTimer = some 0 ∧ (s .lost).link.state = .lost ∧ (s .online).link.sending ≠ none := by decide

theorem test_witness_TransmitterOrder :
    let l := joined.link
    let owing := (seatAt 5 ⟨4, none, some 7⟩ { joined with table := Table.cold }).table.owing
    l.sending = none ∧ ({ l with sending := some ⟨5, 0, []⟩ }).sending ≠ none ∧ l.state = .online ∧ l.wakesOwed = 0 ∧
      ({ l with state := .joining, offersOwed := 1 }).offersOwed ≠ 0 ∧ ({ l with wakesOwed := 1 }).wakesOwed ≠ 0 ∧
      ({ l with requests := [⟨1, [], true⟩, ⟨2, [], false⟩] }).requests = [⟨1, [], true⟩] ++ ⟨2, [], false⟩ :: [] ∧
      l.requests = [] ∧ l.statusOwed = false ∧ l.credits ≠ 0 ∧ owing = [⟨7, 5, false⟩] ∧
      (joined.table.owing.map fun o => (o.order, o.slot, o.isRecord)) = [(1, 1, true), (2, 2, true)] := by
  decide +kernel

theorem test_witness_ReceiverEvents :
    let s := fun bs : List Byte => joined.onLink fun l => { l with assembly := some bs, interByte := some 0 }
    State.reset.link.state = .offline ∧ (s []).link.interByte = some 0 ∧ (s []).link.state ≠ .offline ∧
      joined.link.assembly = none ∧ (s []).link.assembly = some [] ∧
      (s [2, 8, 1]).link.assembly = some (2 :: [8, 1]) ∧ (2 : Byte).toNat ≤ 128 ∧
      ([8, 1] : List Byte).length + 2 < (2 : Byte).toNat + 5 := by decide

theorem test_witness_FrameBytesArrive :
    (List.replicate 128 (0 : Byte)).length ≤ 128 ∧ joined.link.state ≠ .offline ∧ joined.link.assembly = none ∧
      (0 : BitVec 16) ≠ crc [0, 3, 0] := by decide +kernel

theorem reset_set_is_whole (n : Nat) :
    (State.reset.store.staging.sec n).length = (sectionRanges n).length := by
  match n with
  | 0 | 1 | 2 | 3 | 4 | 5 | 6 | 7 | 8 => decide +kernel
  | _ + 9 => rfl

theorem test_witness_SettingsAndClockCommands :
    State.reset.portIdle ∧ fieldRange? (1 : Byte).toNat (15 : Byte).toNat = some (.between 100 16000) ∧
      (FieldRange.between 100 16000).holds (100 : BitVec 32).toNat = true ∧
      (FieldRange.between 100 16000).holds (99 : BitVec 32).toNat = false ∧
      (FieldRange.between 100 16000).holds (16000 : BitVec 32).toNat = true ∧
      (FieldRange.between 100 16000).holds (16001 : BitVec 32).toNat = false ∧
      (∀ n, (State.reset.store.staging.sec n).length = (sectionRanges n).length) ∧
      fieldRange? (9 : Byte).toNat (1 : Byte).toNat = none ∧ fieldRange? (1 : Byte).toNat (0 : Byte).toNat = none ∧
      (99 : Byte).toNat ≤ 99 ∧ 99 < (100 : Byte).toNat :=
  ⟨⟨rfl, rfl⟩, rfl, by decide, by decide, by decide, by decide, reset_set_is_whole, rfl, rfl, by decide, by decide⟩

theorem test_witness_CommitSettings :
    let bad := State.reset.onStore fun st => { st with staging := st.staging.put 1 15 4600 }
    State.reset.portIdle ∧ (State.reset.onStore fun st => { st with writing := some 5 }).store.writing ≠ none ∧
      bad.store.writing = none ∧ bad.store.staging.firstBroken? = some (1, 16) ∧
      State.reset.store.staging.firstBroken? = none ∧ State.reset.store.staging.linkEnable = false ∧
      (State.reset.onStore fun st => { st with staging := st.staging.put 8 1 1 }).store.staging.linkEnable = true ∧
      State.reset.link.state = .offline := by
  refine ⟨⟨rfl, rfl⟩, ?_⟩
  decide +kernel

theorem test_witness_StoreWriteEnds :
    (State.reset.onStore fun st => { st with writing := some 0 }).store.writing = some 0 ∧
      (State.reset.onStore fun st => { st with writing := some 25 }).store.writing ≠ none := by decide

theorem test_witness_EventsNotDueChangeNothing :
    State.reset.level.roundTimer ≠ some 0 ∧ State.reset.level.rounds + 1 < 10 * State.reset.level.periodSecs ∧
      (State.reset.level.float .low).timer ≠ some 0 ∧ (State.reset.balance.weirs.get .i1).separation ≠ some 0 ∧
      (State.reset.pump .i1).history = [] ∧ (State.reset.pump .i1).runTicks < 100 ∧
      ((State.reset.onPump .i1 fun q => { q with stopWindow := some 1 }).pump .i1).stopWindow ≠ some 0 ∧
      (State.reset.table.slot 47).record = none ∧ State.reset.link.sending = none ∧ State.reset.store.writing = none ∧
      State.reset.store.writing ≠ some 0 := by decide


/-! Witnesses of the clauses that say what an operation answers: a row of each table, at its edges -/

/-- Screen 1's rake in a state, with an operation and a claim. -/
def rakeIn (st : RakeState) (op : Operation) : State := duty3.onScreen .i1 fun a =>
  { a with rake := st, op := op, claim := some 3 }

/-- Every debounced line of a pump and a screen is due. -/
def allDue : State := (duty3.onPump .i3 fun q =>
    { q with hand := due, auto := due, feedback := due, thermal := due, sealProbe := due }).onScreen .i1 fun a =>
  { a with home := due, bottom := due, overload := due }

/-- The factory thresholds of section 2.12: 300, 200, 2500 and 1500 L/s, and a hold of 600 s. -/
theorem test_witness_UnknownLevel :
    State.reset.level.wellLevel = none ∧
      let s := fun c i h => State.reset.onBalance fun b =>
        { b with cls := c, inflowStale := false, inflow := i, hold := h }
      (stageClass 2 (s .dry 2500 0)).balance.cls = .storm ∧ (stageClass 2 (s .dry 2499 0)).balance.cls = .wet ∧
      (stageClass 2 (s .dry 300 0)).balance.cls = .wet ∧ (stageClass 2 (s .dry 299 0)).balance.cls = .dry ∧
      (stageClass 2 (s .storm 1500 598)).balance.cls = .wet ∧
      (stageClass 2 (s .storm 1500 597)).balance.cls = .storm := by decide +kernel

theorem test_witness_PositionsInLevelMode :
    let s := (atLevel 1800).onLevel fun l => { l with mode := .level, low := due }
    s.level.mode = .level ∧ s.level.wellLevel = some 1800 ∧ (s.level.float .low).timer = some 0 ∧
      FloatId.low ≠ .highHigh ∧ duty3.duty.wanted ≤ [Ix6.i3].length ∧ [Ix6.i3].length < 2 := by decide

theorem test_witness_RakeGrants :
    let paused := fun st : RakeState => (rakeIn .paused .cycle).onScreen .i1 fun a =>
      { a with claim := none, saved := some st, interrupted := .down }
    ((rakeIn .waiting .cycle).screen .i1).rake = .waiting ∧ ((paused .gripping).screen .i1).rake = .paused ∧
      [RakeState.descending, .ascending, .homing, .positioning, .gripping, .discharging, .reversing].map
        (fun st => ((paused st).screen .i1).saved) =
        [some .descending, some .ascending, some .homing, some .positioning, some .gripping, some .discharging,
          some .reversing] ∧
      ((rakeIn .waiting (.finish 3)).screen .i1).op = .finish 3 ∧
      ((rakeIn .waiting (.home true)).screen .i1).op = .home true ∧
      (duty3.screen .i1).position < 5 ∧ 0 = (duty3.screen .i1).position ∧
      ((rakeIn .descending .cycle).screen .i1).rake = .descending ∧
      ((rakeIn .positioning .none).screen .i1).rake = .positioning := by decide +kernel

theorem test_witness_PumpInputs :
    (allDue.pump .i3).feedback.timer = some 0 ∧ (allDue.pump .i3).thermal.timer = some 0 ∧
      (allDue.pump .i3).sealProbe.timer = some 0 ∧ ((allDue.pump .i3).line .hand).timer = some 0 ∧
      (allDue.pump .i3).seq = .running ∧ (duty3.pump .i3).feedback.state = true ∧
      (State.reset.pump .i1).feedback.state = false ∧
      ((duty3.onPump .i3 fun q => { q with seq := .queued }).pump .i3).seq = .queued := by decide

theorem test_witness_Notices :
    (⟨.linkProtocol, 0⟩ : Key).kind = .linkProtocol ∧ (⟨.storm, 0⟩ : Key).kind.latched = false ∧
      (State.reset.table.slot 1).record.map Record.state = some .raised ∧
      (State.reset.table.slot 1).record.map Record.key = some ⟨.mainsFail, 0⟩ ∧
      Key.mk .mainsFail 0 ∈ [Key.mk .mainsFail 0] ∧ Key.mk .mainsFail 0 ∉ [Key.mk .noPower 0] ∧
      (State.reset.table.slot 9).record = none := by decide

theorem test_witness_SourceChanges :
    let s := duty3.onPower fun w => { w with mainsOk := ⟨false, false, none⟩ }
    s.power.source ≠ s.power.derive ∧ duty3.power.source = duty3.power.derive ∧
      (let r := State.reset.onPower fun w => { w with transferring := true }
       r.power.transferring = true ∧ r.power.ack = false ∧ claimSum r = 0 ∧ claimSum duty3 ≠ 0) := by decide +kernel

theorem test_witness_ShedsAndGrants :
    let dark := duty3.onPower fun w => { w with source := .none }
    let calm := duty3.onPump .i3 fun q => { q with called := true }
    free dark < 0 ∧ claimSum dark ≠ 0 ∧ 0 ≤ free duty3 ∧ duty3.duty.ladder = [.i1, .i2] ++ .i3 :: [.i4, .i5, .i6] ∧
      (∀ p, (duty3.pump p).claim ≠ none → (duty3.pump p).seq = .starting ∨ (duty3.pump p).seq = .running) ∧
      calm.power.queue = [] ∧ (duty3.pump .i3).minRun = none ∧
      (let q := duty3.onPower fun w => { w with queue := [.rake .i1] }
       q.power.queue = .rake .i1 :: [] ∧ grantable q (.rake .i1) = true ∧ grantable dark (.rake .i1) = false) := by
  refine ⟨by decide +kernel, by decide +kernel, by decide +kernel, rfl, ?_, rfl, rfl, ?_⟩
  · intro p; cases p <;> decide
  · decide +kernel

theorem test_witness_OperationsInHand :
    let sc := fun op => (rakeIn .ascending op).screen .i1
    (sc .cycle).rake ≠ .locked ∧ (sc .cycle).rake ≠ .idle ∧ (sc .cycle).rake ≠ .held ∧ (sc .cycle).homed = true ∧
      (sc .cycle).op = .cycle ∧ (sc (.finish 2)).op = .finish 2 ∧ (sc (.position 9)).op.isCycle = false ∧
      (sc (.home false)).op = .home false ∧ (sc .cycle).op ≠ .home true ∧ (sc .cycle).home.state = false ∧
      ((rakeIn .held .none).screen .i1).rake = .held ∧ ((rakeIn .held .none).screen .i1).homed = true := by decide

theorem test_witness_RakeInputs :
    (allDue.screen .i1).home.timer = some 0 ∧ (allDue.screen .i1).bottom.timer = some 0 ∧
      (allDue.screen .i1).overload.timer = some 0 ∧ (State.reset.screen .i1).diffStale = true ∧
      ((duty3.onScreen .i1 fun a => { a with diffStale := false }).screen .i1).diffStale = false := by decide

theorem test_witness_Waking :
    (joined.onLink fun l => { l with state := .quiet }).link.state = .quiet ∧ joined.link.state ≠ .quiet ∧
      fullState.table.saturated = false ∧ TableOk fullState.table ∧
      (let s := seatAt 0 ⟨1, some (recordOf ⟨.tableSaturated, 0⟩ .acked 9), none⟩ fullState
       (s.onTable fun t => { t with saturated := true }).table.saturated = true ∧
       (s.table.slot 0).record = some (recordOf ⟨.tableSaturated, 0⟩ .acked 9)) ∧
      fullState.table.suppressed.add .minor ≠ fullState.table.suppressed ∧
      (⟨0, 65535, 0, 0⟩ : Suppressions).add .minor = ⟨0, 65535, 0, 0⟩ :=
  ⟨rfl, by decide, by decide +kernel, ⟨by decide +kernel, by decide⟩, by decide +kernel, by decide +kernel, by decide⟩

theorem test_witness_Serving :
    let s := stormState.onTable fun t => { t with waiting := [waits 1 .major] }
    s.table.waiting = waits 1 .major :: [] ∧ s.table.place? = some 12 ∧ fullState.table.place? = none ∧
      12 < stormState.table.slots.length ∧
      (let e := stormState.onTable fun t => { t with saturated := true }
       e.table.saturated = true ∧ (e.table.slot 12).record.map Record.state = some .dormant) := by decide +kernel

theorem test_witness_WholeTable :
    let met := fun r : Record => r.state = .raised ∧ Severity.advisory.code ≤ r.severity.code ∧ r.shelved = false
    (∃ r, (State.reset.table.slot 1).record = some r ∧ met r ∧ r.key.kind.latched = false) ∧
      State.reset.table.waiting = [] ∧ 1 < 48 ∧
      (List.range 48).countP (fun i => (State.reset.table.slot i).record.isSome) ≠ 0 ∧
      (∃ r, (stormState.table.slot 12).record = some r ∧ r.state = .dormant) ∧
      (∀ i, i < 48 → (Table.cold.slot i).record = none) := by
  refine ⟨⟨_, rfl, by decide, by decide⟩, rfl, by decide, by decide +kernel, ⟨_, rfl, rfl⟩, by decide +kernel⟩

theorem test_witness_Images :
    let s := (duty3.onPump .i3 fun q => { q with history := [⟨0, 0⟩] }).onScreen .i1 fun a =>
      { a with completion := some ⟨true, 1, .complete, 0, 1, ⟨0, 0⟩⟩, jamTimer := some 25 }
    (s.pump .i3).history = ⟨0, 0⟩ :: [] ∧ (s.screen .i1).jamTimer = some 25 ∧
      (s.screen .i1).completion = some ⟨true, 1, .complete, 0, 1, ⟨0, 0⟩⟩ ∧ s.shown.ladder.length = 6 ∧
      s.power.queue.length ≤ 8 ∧ State.reset.link.protocolCause = false ∧
      (ticksSince ⟨3599, 99⟩ ⟨0, 0⟩ < 360000 ∧ ¬ticksSince ⟨3600, 0⟩ ⟨0, 0⟩ < 360000) := by decide +kernel

theorem test_witness_CommitLink :
    (set1 8 1 1 State.reset).running.linkEnable = true ∧ State.reset.running.linkEnable = false ∧
      State.reset.link.state = .offline ∧ joined.link.state = .online ∧
      (joined.onLink fun l => { l with state := .joining }).link.state = .joining ∧
      lampType 0x1040000 = 1 ∧ lampType 0x2000100 = 2 ∧ lampType 0 ≠ 1 ∧ lampType 0 ≠ 2 := by decide +kernel

end Sys2Proof.Tests
end

section
/-!
SUPPORT. The panel port where a byte names no command, and its attention flags (R154, R157 to R159, R168, R169): one
rule for each strobe and each operation on the flags, then the statements of the family.
-/

namespace Sys2Proof.Machine

/-! Strobes (R154, R157 to R159) -/

/-- The phases in which the port takes no byte: a command, a stream or a result is in hand (R158). -/
def Phase.takesNoByte (ph : Phase) : Prop :=
  ph = .executing ∨ (∃ st, ph = .streaming st) ∨ ∃ r, ph = .result r

/-- In IDLE a code that names no command is answered with INVALID-COMMAND alone (R157). -/
theorem dataWrite_invalid {s : State} (h : s.portIdle) {code : Byte} (hc : parameterCount? code.toNat = none) :
    dataWrite code s = s.answered [9] := by
  obtain ⟨hphase, hline⟩ := h
  have hcode : dataWrite code s = takeCode code s := by simp [dataWrite, hphase, hline]
  rw [hcode, takeCode]
  simp only [hc]
  rfl

/-- A byte written where none is taken is a protocol fault (R158). -/
theorem dataWrite_fault {s : State} (hline : s.port.resetLine = false) (hp : s.port.phase.takesNoByte) (b : Byte) :
    dataWrite b s = portFault s := by
  obtain hp | ⟨st, hp⟩ | ⟨r, hp⟩ := hp <;> simp [dataWrite, hline, hp]

/-- Bytes written where none is taken leave the one PROTOCOL mark, however many they are (R158). -/
theorem writeBytes_fault {s : State} (hline : s.port.resetLine = false) (hp : s.port.phase.takesNoByte)
    {bs : List Byte} (hbs : bs ≠ []) : writeBytes bs s = portFault s := by
  induction bs generalizing s with
  | nil => exact absurd rfl hbs
  | cons b bs ih =>
    have hfirst : writeBytes (b :: bs) s = writeBytes bs (portFault s) := by
      rw [← dataWrite_fault hline hp b]; rfl
    rw [hfirst]
    by_cases hrest : bs = []
    · subst hrest; rfl
    · exact ih (s := portFault s) hline hp hrest

/-- A read in RESULT gives the next byte, and the last one leaves the port IDLE (R159). -/
theorem readData_result {s : State} (hline : s.port.resetLine = false) {b : Byte} {rest : List Byte}
    (hp : s.port.phase = .result (b :: rest)) (tc : Bool) :
    readData tc s = s.onPort fun p =>
      { p with dataOut := b, phase := if rest = [] then .idle else .result rest } := by
  simp only [readData, hline, hp]
  rfl

/-- Settles O40: the code is answered from IDLE, and the strobes that follow find the port in RESULT. -/
theorem invalidCommand : Obligations.InvalidCommand := by
  intro s code tc bs hidle hc
  have hwrite := dataWrite_invalid hidle hc
  have hline : (s.answered [9]).port.resetLine = false := hidle.2
  refine ⟨?_, ?_, fun hbs => ?_, ?_⟩
  · have henabled : (parameterCount? code.toNat == none) = true := by simp [hc]
    show when _ (dataWrite code) s = _
    rw [henabled, when, if_pos rfl, hwrite]
  · exact congrArg _ hwrite
  · exact writeBytes_fault hline (.inr (.inr ⟨[9], rfl⟩)) hbs
  · exact congrArg _ (readData_result hline rfl tc)

/-! The attention flags (R167 to R169) -/

/-- Clearing the flags that are set and enabled leaves the flags that are not enabled. -/
theorem Attention.less_meet (f e : Attention) : f.less (f.meet e) = f.less e := by
  have hbit : ∀ a b : Bool, (a && !(a && b)) = (a && !b) := by decide
  simp only [Attention.less, Attention.meet, hbit]

/-- No flag whose enable is off asserts ATTN. -/
theorem Attention.less_meet_some? (f e : Attention) : ((f.less e).meet e).some? = false := by
  simp [Attention.less, Attention.meet, Attention.some?]

/-- A byte has neither of its two highest bits set exactly where it is below 64. -/
theorem byte_lt_64_iff (b : Byte) : b.toNat < 64 ↔ b.getLsbD 6 = false ∧ b.getLsbD 7 = false := by
  have hb := b.isLt
  simp only [BitVec.getLsbD, Nat.testBit_eq_decide_div_mod_eq, decide_eq_false_iff_not]
  omega

/-- READ ATTENTION gives the flags set and enabled, and leaves those whose enable is off and no ATTN (R168). -/
theorem cmdReadAttention_eq (s : State) :
    cmdReadAttention s = reply .done [byte (s.port.flags.meet s.port.enables).code]
      (s.onPort fun p => { p with attn := false, flags := p.flags.less p.enables }) := by
  have hport : ({ s.port with flags := s.port.flags.less (s.port.flags.meet s.port.enables) } : Port).formAttn =
      { s.port with attn := false, flags := s.port.flags.less s.port.enables } := by
    simp only [Port.formAttn, Attention.less_meet, Attention.less_meet_some?]
  simp only [cmdReadAttention, State.onPort, hport]

/-- READ ATTENTION is the writing of its code. -/
theorem exec_readAttention {s : State} (h : s.portIdle) :
    exec .readAttention s = .next (cmdReadAttention (s.taken 0x60 [])) :=
  congrArg Host.Outcome.next (writeBytes_bare h rfl)

/-- SET ATTENTION ENABLES is the writing of its code and its one parameter. -/
theorem exec_setAttentionEnables {s : State} (h : s.portIdle) (b : Byte) :
    exec (.setAttentionEnables b) s = .next (cmdSetEnables b (s.taken 0x61 [b])) :=
  congrArg Host.Outcome.next (writeBytes_command (ps := [b]) h rfl)

/-- Settles O43: each command is run by its bytes; the range of the enable byte is that of its two highest bits. -/
theorem attentionCommands : Obligations.AttentionCommands := by
  refine ⟨fun s hidle => ?_, fun s b hidle => ⟨fun hhigh => ?_, fun h6 h7 => ?_⟩⟩
  · rw [exec_readAttention hidle, cmdReadAttention_eq]
    rfl
  · have hrange : ¬ b.toNat < 64 := by
      rw [byte_lt_64_iff]
      rintro ⟨h6, h7⟩
      simp only [h6, h7, Bool.false_eq_true, or_self] at hhigh
    rw [exec_setAttentionEnables hidle, cmdSetEnables, if_neg hrange]
    rfl
  · rw [exec_setAttentionEnables hidle, cmdSetEnables, if_pos ((byte_lt_64_iff b).2 ⟨h6, h7⟩)]
    rfl

end Sys2Proof.Machine
end

section
/-!
SUPPORT. The town's QUIET-ASK and WAKE (R186, R187): what the wake of an asking link leaves, the order of the four
tests, the answer of an admitted QUIET-ASK, and the arrival of a WAKE.
-/

namespace Sys2Proof.Machine

/-! QUIET-ASK (R186) -/

theorem woken_balance (s : State) : s.woken.balance = s.balance := (wakeLink_frame false (hunt s)).balance

theorem woken_duty (s : State) : s.woken.duty = s.duty := (wakeLink_frame false (hunt s)).duty

theorem woken_period (s : State) : s.woken.link.period = s.link.period :=
  (congrArg Link.period (wakeLink_frame false (hunt s)).link :)

/-- The four tests of QUIET-ASK in their order; the wake of the link that asks touches nothing that they read. -/
theorem quietFails_woken (s : State) :
    quietFails s.woken =
      if s.balance.cls ≠ .dry then some .notDry
      else if (s.woken.table.records.any fun r =>
        decide (2 ≤ r.severity.code) && (r.state = .raised || r.state = .returned)) = true then some .alarmUndone
      else if s.duty.drawdownTimer ≠ none then some .drawdownActive
      else if s.table.owing ≠ [] then some .noticesOwed
      else none := by
  rw [quietFails, woken_balance, woken_duty, woken_table]
  simp only [Duty.drawdownActive, Option.isSome_iff_ne_none]
  rfl

/-- An admitted QUIET-ASK is answered from the state in which its link is awake. -/
theorem exec_quietAsk {tag : Byte} {s : State} (h : Admits tag s) :
    exec (.quietAsk tag []) s = .next (conclude (respond 0x19 tag (takeQuietAsk s.woken))) :=
  congrArg Host.Outcome.next (arrive_admitted [] h (by decide) (by decide) (by decide))

/-- A test that fails refuses with its reason, and nothing else changes. -/
theorem exec_quietAsk_refused {tag : Byte} {s : State} (h : Admits tag s) {r : Refusing}
    (hr : quietFails s.woken = some r) :
    exec (.quietAsk tag []) s = .next (conclude (s.woken.responded 0x19 tag [14, byte r.code])) := by
  rw [exec_quietAsk h, takeQuietAsk, hr]
  rfl

/-- Where no test fails the link enters QUIET and the answer is DONE. -/
theorem exec_quietAsk_done {tag : Byte} {s : State} (h : Admits tag s) (hr : quietFails s.woken = none) :
    exec (.quietAsk tag []) s = .next (conclude ((enterQuiet s.woken).responded 0x19 tag [0])) := by
  rw [exec_quietAsk h, takeQuietAsk, hr]
  rfl

/-- The entry to QUIET, with the heartbeat period the link had before it woke. -/
theorem enterQuiet_woken (s : State) :
    enterQuiet s.woken = setFlag .link (s.woken.onLink fun l => { l with
      state := .quiet, heartbeatTimer := some (100 * (18 * s.link.period.getD 0))
      statusTimer := some (100 * (6 * s.link.period.getD 0)) }) := by
  rw [enterQuiet, woken_period]
  rfl

/-! WAKE (R187) -/

/-- A WAKE that arrives outside OFFLINE is taken by the link as the receiver hunts again. -/
theorem exec_wake {s : State} (h : s.link.state ≠ .offline) :
    exec (.wake []) s = .next (conclude (takeFrame 0x04 0 [] (hunt s))) :=
  congrArg Host.Outcome.next (if_neg h)

/-- A WAKE taken in ONLINE or QUIET is a wake by the town. -/
theorem takeFrame_wake_joined {s : State} (h : s.link.state = .online ∨ s.link.state = .quiet) :
    takeFrame 0x04 0 [] s = wakeLink false s := by
  obtain h | h := h <;> rw [takeFrame, h] <;> rfl

/-- A WAKE taken in QUIET wakes the link, and owes no WAKE of the part's own. -/
theorem takeFrame_wake_quiet {s : State} (h : s.link.state = .quiet) :
    takeFrame 0x04 0 [] s = setFlag .link (s.onLink fun l => { l with
      state := .online, heartbeatTimer := some (100 * (3 * s.link.period.getD 0)), statusOwed := true
      statusTimer := some (100 * s.link.period.getD 0) }) := by
  rw [takeFrame_wake_joined (.inr h), wakeLink, if_pos h]
  rfl

/-- A WAKE taken in any state but QUIET is dropped. -/
theorem takeFrame_wake_dropped {s : State} (h : s.link.state ≠ .quiet) : takeFrame 0x04 0 [] s = s := by
  cases hstate : s.link.state with
  | quiet => exact absurd hstate h
  | online => rw [takeFrame_wake_joined (.inl hstate), wakeLink, if_neg h]
  | joining =>
    rw [takeFrame, hstate]
    rfl
  | offline | lost => rw [takeFrame, hstate]

/-- Settles O49: the first test that fails, as `quietFails_woken` orders them, picks the answer; a WAKE is told apart by
the link's state. -/
theorem quietAndWake : Obligations.QuietAndWake := by
  intro s tag
  refine ⟨fun hadm => ⟨fun hcls => ?_, fun hcls hundone => ?_, fun hcls hundone hdraw => ?_,
    fun hcls hundone hdraw howing => ?_, fun hcls hundone hdraw howing => ?_⟩,
    fun hquiet => ?_, fun hstate => ?_, fun hoff => ?_⟩
  · exact exec_quietAsk_refused hadm (r := .notDry) (by rw [quietFails_woken, if_pos hcls])
  · exact exec_quietAsk_refused hadm (r := .alarmUndone)
      (by rw [quietFails_woken, if_neg (not_not_intro hcls), if_pos hundone])
  · exact exec_quietAsk_refused hadm (r := .drawdownActive)
      (by rw [quietFails_woken, if_neg (not_not_intro hcls), if_neg (ne_true_of_eq_false hundone), if_pos hdraw])
  · exact exec_quietAsk_refused hadm (r := .noticesOwed)
      (by rw [quietFails_woken, if_neg (not_not_intro hcls), if_neg (ne_true_of_eq_false hundone),
        if_neg (not_not_intro hdraw), if_pos howing])
  · have hpass : quietFails s.woken = none := by
      rw [quietFails_woken, if_neg (not_not_intro hcls), if_neg (ne_true_of_eq_false hundone),
        if_neg (not_not_intro hdraw), if_neg (not_not_intro howing)]
    rw [exec_quietAsk_done hadm hpass, enterQuiet_woken]
  · have hwake := takeFrame_wake_quiet (s := hunt s) hquiet
    rw [exec_wake (by rw [hquiet]; decide), hwake]
    rfl
  · have hnot : s.link.state ≠ .offline ∧ s.link.state ≠ .quiet := by
      obtain h | h | h := hstate <;> rw [h] <;> decide
    rw [exec_wake hnot.1, takeFrame_wake_dropped (s := hunt s) hnot.2]
  · exact congrArg Host.Outcome.next (if_pos hoff)

end Sys2Proof.Machine
end


section
/-!
SUPPORT. Facts about conditions, lists and chains of steps that the core library has not: the proofs stand on it alone.
-/

namespace Sys2Proof.Machine

/-- One choice in place of another, its condition and both its values equal. -/
theorem ite_of_iff {α : Sort _} {p q : Prop} [Decidable p] [Decidable q] {a b c d : α} (h : p ↔ q) (ht : a = c)
    (hf : b = d) : (if p then a else b) = if q then c else d :=
  ite_congr (propext h) (fun _ => ht) fun _ => hf

theorem congr_two {α β γ : Type} (f : α → β → γ) {a a' : α} {b b' : β} (h : a = a') (k : b = b') : f a b = f a' b' :=
  h ▸ k ▸ rfl

section List

variable {α β : Type}

theorem of_mem_takeWhile {p : α → Bool} {l : List α} {x : α} (h : x ∈ l.takeWhile p) : p x = true :=
  List.all_eq_true.mp List.all_takeWhile x h

theorem nodup_map {f : α → β} {l : List α} (hf : ∀ x y, f x = f y → x = y) (h : l.Nodup) : (l.map f).Nodup :=
  List.Pairwise.map f (fun x y hne e => hne (hf x y e)) h

theorem nodup_filter {l : List α} (p : α → Bool) (h : l.Nodup) : (l.filter p).Nodup :=
  List.Nodup.sublist List.filter_sublist h

/-- A list no longer than the distinct members it has holds nothing else. -/
theorem perm_of_subset [DecidableEq α] {l m : List α} (hn : l.Nodup) (hs : ∀ x ∈ l, x ∈ m) (hl : m.length ≤ l.length) :
    l.Perm m := by
  induction l generalizing m with
  | nil => rw [List.eq_nil_of_length_eq_zero (Nat.le_zero.mp hl)]
  | cons a l ih =>
    obtain ⟨ha, hn⟩ := List.nodup_cons.mp hn
    have ham := hs a (.head _)
    have hrest : ∀ x ∈ l, x ∈ m.erase a := fun x hx =>
      (List.mem_erase_of_ne fun (e : x = a) => ha (e ▸ hx)).mpr (hs x (.tail _ hx))
    have hlen : (m.erase a).length ≤ l.length := by
      rw [List.length_erase_of_mem ham]
      exact Nat.sub_le_of_le_add hl
    exact ((ih hn hrest hlen).cons a).trans (List.perm_cons_erase ham).symm

end List

/-! Chains of steps -/

/-- Some steps of a relation, one after another. -/
inductive Reaches {α : Type} (R : α → α → Prop) (a : α) : α → Prop
  | refl : Reaches R a a
  | tail {b c : α} (h : Reaches R a b) (k : R b c) : Reaches R a c

section Reaches

variable {α : Type} {R : α → α → Prop} {a b c : α}

theorem Reaches.single (h : R a b) : Reaches R a b := .tail .refl h

theorem Reaches.trans (h : Reaches R a b) (k : Reaches R b c) : Reaches R a c := by
  induction k with
  | refl => exact h
  | tail _ hstep ih => exact ih.tail hstep

theorem Reaches.head (h : R a b) (k : Reaches R b c) : Reaches R a c := (Reaches.single h).trans k

end Reaches

end Sys2Proof.Machine
end


section
/-!
SUPPORT. What every command keeps: the rows of the command table sorted into panel exchanges, frames of the town and
events, so that a relation is carried over a step by three kinds of proof; then the promises every step keeps.
-/

namespace Sys2Proof.Machine

open Host (Outcome)

/-! The rows of the command table -/

/-- When an event is due: the guard of its row. An event without a guard is always taken. -/
def eventDue (i : Instr) (s : State) : Bool :=
  match i with
  | .roundComplete .. => timerDue s.level.roundTimer
  | .periodEnd .. => timerDue s.level.roundTimer && lastRound s
  | .floatDebounceExpiry f => (s.level.float f).due
  | .separationTimerExpiry w =>
    timerDue (s.balance.weirs.get w).separation && (s.balance.weirs.get w).spill = .settling
  | .selectorDebounceExpiry p l => ((s.pump p).line l).due
  | .startHistoryAgeOut p => oldestAged s.clock.uptime (s.pump p).history
  | .headBlockedDelayExpiry p => timerDue (s.pump p).headTimer
  | .drawdownExpiry => timerDue s.duty.drawdownTimer
  | .runSecondsTick p => 100 ≤ (s.pump p).runTicks
  | .pumpInputDebounceExpiry p i => ((s.pump p).input i).due
  | .startWindowExpiry p => timerDue (s.pump p).startWindow && (s.pump p).seq = .starting
  | .minRunExpiry p => timerDue (s.pump p).minRun
  | .stopWindowExpiry p => timerDue (s.pump p).stopWindow && (s.pump p).seq = .stopping
  | .runDownExpiry p => timerDue (s.pump p).runDown && (s.pump p).seq = .stopping
  | .powerLineDebounceExpiry l => (s.power.line l).due
  | .staggerTimerExpiry => timerDue s.power.stagger
  | .rakeInputDebounceExpiry n i => ((s.screen n).input i).due
  | .pulse n => (s.screen n).up || (s.screen n).down
  | .gripDwellExpiry n => timerDue (s.screen n).dwell && (s.screen n).rake = .gripping
  | .dischargeDwellExpiry n => timerDue (s.screen n).dwell && (s.screen n).rake = .discharging
  | .jamTimerExpiry n => timerDue (s.screen n).jamTimer
  | .reverseTimerExpiry n => timerDue (s.screen n).reverse && (s.screen n).rake = .reversing
  | .shelfTimerExpiry i => (s.table.slot i.val).record.any fun r => r.shelved && timerDue r.shelf
  | .invalidCommand c => parameterCount? c.toNat == none
  | .byteWindowExpiry => timerDue s.port.window
  | .resetAssert => !s.port.resetLine
  | .resetRelease => s.port.resetLine
  | .resetTimerExpiry => s.port.resetLine && timerDue s.port.resetTimer
  | .frameCheckFail | .framingError => assembles s
  | .interByteTimerExpiry => timerDue s.link.interByte
  | .frameSent => s.link.sending.isSome
  | .offerTimerExpiry => timerDue s.link.offerTimer && s.link.state = .joining
  | .heartbeatTimerExpiry => timerDue s.link.heartbeatTimer && (s.link.state = .online || s.link.state = .quiet)
  | .statusTimerExpiry => timerDue s.link.statusTimer && (s.link.state = .online || s.link.state = .quiet)
  | .lossTimerExpiry => timerDue s.link.lossTimer && s.link.state = .lost
  | .storeWriteReport _ => s.store.writing.isSome
  | .storeTimeoutExpiry => timerDue s.store.writing
  | _ => true

/-- The events of the plant and its timers that the end of an event follows: what each does before it. -/
def eventBody? (i : Instr) (s : State) : Option State :=
  match i with
  | .periodEnd v r => takePeriodEnd (takeRound v r s)
  | .separationTimerExpiry w => separationExpires w s
  | .selectorDebounceExpiry p l => deriveSelector p (s.onPump p (Pump.onLine l Debounced.take))
  | .startHistoryAgeOut p => reviewStarts p (s.onPump p fun q => { q with history := q.history.tail })
  | .headBlockedDelayExpiry p => headDelayExpires p s
  | .drawdownExpiry => endDrawdown s
  | .pumpInputDebounceExpiry p i => pumpInputMoved p i (s.onPump p (Pump.onInput i Debounced.take))
  | .startWindowExpiry p => startWindowExpires p s
  | .minRunExpiry p => s.onPump p fun q => { q with minRun := none }
  | .stopWindowExpiry p => stopWindowExpires p s
  | .runDownExpiry p => runDownExpires p s
  | .powerLineDebounceExpiry l => powerLineMoved l (s.onPower (Power.onLine l Debounced.take))
  | .staggerTimerExpiry => s.onPower fun w => { w with stagger := none }
  | .rakeInputDebounceExpiry n i => rakeInputMoved n i (s.onScreen n (Screen.onInput i Debounced.take))
  | .pulse n => takePulse n s
  | .gripDwellExpiry n => gripExpires n s
  | .dischargeDwellExpiry n => dischargeExpires n s
  | .jamTimerExpiry n => jamExpires n s
  | .reverseTimerExpiry n => endReverse n s
  | .shelfTimerExpiry i => unshelveSlot i.val s
  | .heartbeatTimerExpiry => heartbeatExpires s
  | .storeWriteReport c => endWrite (if c then WriteEnd.complete else WriteEnd.failed) s
  | .storeTimeoutExpiry => endWrite .timedOut s
  | .roundComplete v r =>
    let t := takeRound v r s
    some (if periodComplete t then takePeriodEnd t else t)
  | .floatDebounceExpiry f =>
    let t := s.onLevel (Level.onFloat f Debounced.take)
    wantedAtFloat f (if f = .highHigh then followHighHighFloat t else t)
  | _ => none

/-- The events that no end of an event follows: what each does. -/
def eventSilent? (i : Instr) (s : State) : Option State :=
  match i with
  | .floatInputChange f v => s.onLevel (Level.onFloat f (Debounced.change v 200))
  | .selectorLineChange p l v => s.onPump p (Pump.onLine l (Debounced.change v 100))
  | .runSecondsTick p => s.onPump p countRunSecond
  | .pumpInputChange p i v => s.onPump p (Pump.onInput i (Debounced.change v 50))
  | .powerLineChange l v => s.onPower (Power.onLine l (Debounced.change v 50))
  | .rakeInputChange n i v => s.onScreen n (Screen.onInput i (Debounced.change v 5))
  | .flashPhase => s.onAnn fun a => { a with flashOn := decide (s.clock.uptime.ticks < 50) }
  | .statusWrite b => writeStatus b s
  | .dataRead tc => readData tc s
  | .invalidCommand c => dataWrite c s
  | .byteWindowExpiry => windowExpires s
  | .resetAssert => s.onPort fun p => { p with resetLine := true, resetTimer := some 1 }
  | .resetRelease => releaseReset s
  | .resetTimerExpiry | .coldStart => coldStart s
  | .frameCheckFail => badFrame s
  | .framingError | .interByteTimerExpiry => hunt s
  | .byteReceived b => receiveByte b s
  | .frameSent => frameLeaves s
  | .offerTimerExpiry => transmit (s.onLink fun l => { l with offersOwed := l.offersOwed + 1, offerTimer := seconds 5 })
  | .statusTimerExpiry => transmit (statusExpires s)
  | .lossTimerExpiry => transmit (setFlag .link (enterJoining s))
  | .clockTick => tick s
  | _ => none

/-- Every command is bytes written to the panel port, a frame that arrives, or an event: one that the end of an event
follows, or one that it does not. -/
theorem exec_kind (i : Instr) (s : State) :
    (∃ bs, exec i s = .next (writeBytes bs s)) ∨ (∃ kind tag p, exec i s = .next (arrive kind tag p s)) ∨
      (∃ u, eventBody? i s = some u ∧ exec i s = .next (if eventDue i s then conclude u else s)) ∨
      (∃ u, eventSilent? i s = some u ∧ exec i s = .next (if eventDue i s then u else s)) := by
  cases i
  case parameterByte byte => exact .inl ⟨[byte], rfl⟩
  case readTallies | readChannels | setDutyOrder | inhibitPump | releasePump | loadTotals | readPump | resetLockout |
      rakeCycle | rakeHome | rakePosition | rakeFinish | senseScreen | readScreen | acknowledge | retire | shelve |
      unshelve | postCondition | returnCondition | acknowledgeAll | retireDormant | findCondition | silence |
      readConditions | readAttention | setAttentionEnables | portReset | readSummary | readLink |
      loadSettings | readSettings | discardSettings | commitSettings | setClock | readClock | commandCodeWrite =>
    exact .inl ⟨_, rfl⟩
  case takeTally | inhibit | drawdown | townAcknowledge | townRetire | joinAccept | heartbeat | invalidRequest |
      lookUpByHandle | lookUpByKey | page | summary | quietAsk | wake =>
    exact .inr (.inl ⟨_, _, _, rfl⟩)
  case floatInputChange | selectorLineChange | pumpInputChange | powerLineChange | rakeInputChange | flashPhase |
      statusWrite | dataRead | byteReceived | coldStart | clockTick =>
    exact .inr (.inr (.inr ⟨_, rfl, congrArg Outcome.next (if_pos rfl).symm⟩))
  case runSecondsTick | invalidCommand | byteWindowExpiry | resetAssert | resetRelease | resetTimerExpiry |
      frameCheckFail | framingError | interByteTimerExpiry | frameSent | offerTimerExpiry | statusTimerExpiry |
      lossTimerExpiry =>
    exact .inr (.inr (.inr ⟨_, rfl, rfl⟩))
  all_goals exact .inr (.inr (.inl ⟨_, rfl, rfl⟩))

/-- A relation carried over every command: the panel's bytes, the town's frames, and the two kinds of event. -/
theorem exec_rel {R : State → State → Prop} {i : Instr} {s t : State} (hr : R s s)
    (hp : ∀ bs, R s (writeBytes bs s)) (ha : ∀ kind tag p, R s (arrive kind tag p s))
    (hb : ∀ u, eventBody? i s = some u → eventDue i s = true → R s (conclude u))
    (he : ∀ u, eventSilent? i s = some u → eventDue i s = true → R s u) (h : exec i s = .next t) : R s t := by
  have hcond : ∀ {u : State}, (eventDue i s = true → R s u) → R s (if eventDue i s then u else s) := by
    intro u hu
    split
    · exact hu ‹_›
    · exact hr
  obtain ⟨bs, hk⟩ | ⟨kind, tag, p, hk⟩ | ⟨u, hu, hk⟩ | ⟨u, hu, hk⟩ := exec_kind i s <;>
    obtain rfl := Outcome.next.inj (hk.symm.trans h)
  · exact hp bs
  · exact ha kind tag p
  · exact hcond (hb u hu)
  · exact hcond (he u hu)

theorem next_rel {R : State → State → Prop} {s t u : State}
    (h : (Outcome.next u : Outcome State Fault Refusal) = .next t) (hu : R s u) : R s t := Outcome.next.inj h ▸ hu

theorem some_rel {R : State → State → Prop} {s t u : State} (h : some u = some t) (hu : R s u) : R s t :=
  Option.some.inj h ▸ hu

/-- A command that runs on the queue's rest carries what a step carries, for a relation that the queue does not enter. -/
theorem step_rel {R : State → State → Prop} {s t : State} (hr : R s s)
    (hq : ∀ rest, R s { s with pending := rest }) (ht : ∀ {a b c}, R a b → R b c → R a c)
    (he : ∀ i u, exec i u = .next t → R u t) (h : step s = .next t) : R s t := by
  unfold step at h
  split at h
  · exact ht (hq _) (he _ _ h)
  · exact next_rel h hr

/-! The promises of Laws/Keeps over a whole command -/

theorem takeSilent_keeps {f : Link → Link} {s : State} (h : CreditsOk s.link → CreditsOk (f s.link)) :
    Keeps s (transmit (s.onLink f)) := (keepsLink f s h).trans (transmit_keeps _)

theorem floatMoved_keeps (f : FloatId) (s : State) :
    Keeps s (if f = .highHigh then followHighHighFloat s else s) := by
  split
  · exact followHighHighFloat_keeps _
  · exact .refl s

theorem roundMade_keeps (s : State) : Keeps s (if periodComplete s then takePeriodEnd s else s) := by
  split
  · exact takePeriodEnd_keeps _
  · exact .refl s

theorem screenInput_exclusive (i : RakeInput) (f : Debounced → Debounced) {a : Screen} (h : a.exclusive) :
    (a.onInput i f).exclusive := by cases i <;> exact h

theorem windowExpires_keeps (s : State) : Keeps s (windowExpires s) := by
  unfold windowExpires
  split
  · exact endStream_keeps ..
  · exact .refl s

theorem releaseReset_keeps (s : State) : Keeps s (releaseReset s) := by
  have hline : Keeps s (s.onPort fun p => { p with resetLine := false, resetTimer := none }) := keepsPort _ s id
  unfold releaseReset
  dsimp only
  split
  · exact hline.trans (portResets_keeps _)
  · exact hline

theorem frameLeaves_keeps (s : State) : Keeps s (frameLeaves s) :=
  takeSilent_keeps fun h => h.same rfl rfl h.2.1 (List.length_filter_le _ _)

theorem eventBody_keeps {i : Instr} {s u : State} (h : eventBody? i s = some u) : Keeps s u := by
  cases i with
  | roundComplete v r => exact some_rel h ((takeRound_keeps v r s).trans (roundMade_keeps _))
  | periodEnd v r => exact some_rel h ((takeRound_keeps v r s).trans (takePeriodEnd_keeps _))
  | floatDebounceExpiry f =>
    exact some_rel h (((keepsLevel _ s).trans (floatMoved_keeps f _)).trans (wantedAtFloat_keeps ..))
  | separationTimerExpiry w => exact some_rel h (separationExpires_keeps w s)
  | selectorDebounceExpiry p l => exact some_rel h ((keepsPump p _ s).trans (deriveSelector_keeps ..))
  | startHistoryAgeOut p => exact some_rel h ((keepsPump p _ s).trans (reviewStarts_keeps ..))
  | headBlockedDelayExpiry p => exact some_rel h (headDelayExpires_keeps p s)
  | drawdownExpiry => exact some_rel h (endDrawdown_keeps s)
  | pumpInputDebounceExpiry p i => exact some_rel h ((keepsPump p _ s).trans (pumpInputMoved_keeps ..))
  | startWindowExpiry p => exact some_rel h (startWindowExpires_keeps p s)
  | minRunExpiry p => exact some_rel h (keepsPump p _ s)
  | stopWindowExpiry p => exact some_rel h (stopWindowExpires_keeps p s)
  | runDownExpiry p => exact some_rel h (runDownExpires_keeps p s)
  | powerLineDebounceExpiry l => exact some_rel h ((keepsPower _ s).trans (powerLineMoved_keeps ..))
  | staggerTimerExpiry => exact some_rel h (keepsPower _ s)
  | rakeInputDebounceExpiry n i =>
    exact some_rel h (keepsScreen (rakeInputMoved_keeps ..) fun _ h => screenInput_exclusive i _ h)
  | pulse n => exact some_rel h (takePulse_keeps n s)
  | gripDwellExpiry n => exact some_rel h (gripExpires_keeps n s)
  | dischargeDwellExpiry n => exact some_rel h (dischargeExpires_keeps n s)
  | jamTimerExpiry n => exact some_rel h (jamExpires_keeps n s)
  | reverseTimerExpiry n => exact some_rel h (endReverse_keeps n s)
  | shelfTimerExpiry i => exact some_rel h (unshelveSlot_frame i.val s).keeps
  | heartbeatTimerExpiry => exact some_rel h (heartbeatExpires_keeps s)
  | storeWriteReport b => exact some_rel h (endWrite_keeps _ s)
  | storeTimeoutExpiry => exact some_rel h (endWrite_keeps _ s)
  | _ => cases h

theorem eventSilent_keeps {i : Instr} {s u : State} (h : eventSilent? i s = some u) : Keeps s u := by
  cases i with
  | floatInputChange f v => exact some_rel h (keepsLevel ..)
  | selectorLineChange p l v => exact some_rel h (keepsPump ..)
  | runSecondsTick p => exact some_rel h (keepsPump ..)
  | pumpInputChange p i v => exact some_rel h (keepsPump ..)
  | powerLineChange l v => exact some_rel h (keepsPower ..)
  | rakeInputChange n i v => exact some_rel h (keepsScreen (.refl _) fun _ h => screenInput_exclusive i _ h)
  | flashPhase => exact some_rel h (keepsAnn ..)
  | statusWrite b => exact some_rel h (writeStatus_keeps b s)
  | dataRead tc => exact some_rel h (readData_keeps tc s)
  | invalidCommand c => exact some_rel h (dataWrite_keeps c s)
  | byteWindowExpiry => exact some_rel h (windowExpires_keeps s)
  | resetAssert => exact some_rel h (keepsPort _ s id)
  | resetRelease => exact some_rel h (releaseReset_keeps s)
  | resetTimerExpiry | coldStart => exact some_rel h (coldStart_keeps s)
  | frameCheckFail => exact some_rel h (badFrame_keeps s)
  | framingError | interByteTimerExpiry => exact some_rel h (hunt_keeps s)
  | frameSent => exact some_rel h (frameLeaves_keeps s)
  | offerTimerExpiry => exact some_rel h (takeSilent_keeps fun h => h.same rfl rfl h.2.1 (Nat.le_refl _))
  | statusTimerExpiry => exact some_rel h ((statusExpires_keeps s).trans (transmit_keeps _))
  | lossTimerExpiry =>
    exact some_rel h (((enterJoining_keeps s).trans (setFlag_keeps ..)).trans (transmit_keeps _))
  | clockTick => exact some_rel h (tick_keeps s)
  | byteReceived b => exact some_rel h (receiveByte_keeps b s)
  | _ => cases h

/-- Every command keeps the five promises. -/
theorem exec_keeps {i : Instr} {s t : State} (h : exec i s = .next t) : Keeps s t :=
  exec_rel (.refl s) (writeBytes_keeps · s) (arrive_keeps · · · s)
    (fun u hu _ => (eventBody_keeps hu).trans (conclude_keeps u)) (fun _ hu _ => eventSilent_keeps hu) h

theorem step_keeps {s t : State} (h : step s = .next t) : Keeps s t :=
  step_rel (.refl s) (fun _ => ⟨id, id, id, id, id⟩) .trans (fun _ _ => exec_keeps) h

/-- Settles O4. -/
theorem stepKeepsMotorsExclusive : Obligations.StepKeepsMotorsExclusive := fun _ _ hs h => (step_keeps h).motors hs

/-- Settles O5. -/
theorem stepKeepsTableSizes : Obligations.StepKeepsTableSizes := fun _ _ hs h => (step_keeps h).table hs

/-- Settles O6. -/
theorem stepKeepsAttnFormed : Obligations.StepKeepsAttnFormed := fun _ _ hs h => (step_keeps h).attn hs

/-- Settles O7. -/
theorem stepKeepsCreditsBounded : Obligations.StepKeepsCreditsBounded := fun _ _ hs h => (step_keeps h).credits hs

/-- Settles O1: `step` is a match on the queue. -/
theorem stepRunsFrontCommand : Obligations.StepRunsFrontCommand := by
  refine ⟨fun s i rest hq => ?_, fun s hq => ?_⟩ <;> rw [step, hq]

/-! The end of an event (O8) -/

theorem annunciate_plant (s : State) : annunciate s = { s with ann := (annunciate s).ann } := rfl

/-- The end of an event is the settling, the saturation test, the outputs formed again and the transmitter's choice. -/
theorem conclude_frame (s : State) : ConcludeFrame s (conclude s) := by
  have hp : PlantFrame s (testSaturation (settle s)) := settled_frame s
  have ht : SendFrame (annunciate (testSaturation (settle s))) (conclude s) := transmit_frame _
  have hbusy : (annunciate (testSaturation (settle s))).link.sending.isSome = true →
      conclude s = annunciate (testSaturation (settle s)) := transmit_busy
  generalize testSaturation (settle s) = u at hp ht hbusy
  generalize conclude s = t at ht hbusy
  have hpump : ∀ p, t.pump p = u.pump p := fun p => congrArg (Six.get · p) ht.pumps
  have hscreen : ∀ n, t.screen n = u.screen n := fun n => congrArg (Two.get · n) ht.screens
  have hstate : t.link.state = u.link.state := by rw [ht.link]; rfl
  have hheart : t.link.heartbeatTimer = u.link.heartbeatTimer := by rw [ht.link]; rfl
  have hstatus : t.link.statusTimer = u.link.statusTimer := by rw [ht.link]; rfl
  have hcredits : u.link.credits = s.link.credits := by rw [hp.link]
  have hrequests : u.link.requests = s.link.requests := by rw [hp.link]
  have hsending : u.link.sending = s.link.sending := by rw [hp.link]
  have hport : t.port = u.port := ht.port
  refine
    { clock := ht.clock.trans hp.clock, level := ht.level.trans hp.level, balance := ht.balance.trans hp.balance
      store := ht.store.trans hp.store, shown := ht.shown.trans hp.shown, pending := ht.pending.trans hp.pending
      duty := ?_, ladder := ?_, power := ?_, pumps := ?_, screens := ?_, motors := ?_, flash := ?_, port := ?_
      flags := ?_, attn := ?_, link := ?_, wakes := ?_, still := ?_, woke := ?_
      credits := hcredits ▸ ht.credits, requests := ?_, busy := ?_, slots := ht.slots.trans hp.slots
      waiting := ?_ }
  · rw [show t.duty = u.duty from ht.duty, ← hp.duty]
  · rw [show t.duty = u.duty from ht.duty]; exact hp.ladder
  · rw [show t.power = u.power from ht.power, ← hp.power]
  · intro p; rw [hpump p, ← hp.pumps p]
  · intro n; rw [hscreen n, ← hp.screens n]
  · intro n; rw [hscreen n]; exact hp.motors n
  · have hflash : t.ann.flashOn = u.ann.flashOn := by rw [ht.ann]; rfl
    rw [hflash, hp.ann]
  · rw [hport, ← hp.port]
  · rw [hport]; exact hp.flags
  · rw [hport]; exact hp.attn
  · have hu := ht.link
    rw [annunciate_link, hp.link] at hu
    rw [hstate, hheart]
    exact hu.trans (by rw [hstatus])
  · rw [hstate]; exact hp.wakes
  · intro h
    rw [hstate] at h
    rw [hheart, hstatus, hp.still h]
    exact ⟨rfl, rfl⟩
  · intro h
    rw [hstate] at h
    rw [hheart, hstatus]
    exact hp.woke h
  · exact ht.requests.trans (congrArg (List.map _) hrequests)
  · intro h
    rw [hbusy ((congrArg Option.isSome hsending).trans h)]
    exact ⟨hsending, hcredits, hrequests⟩
  · rw [show t.table.waiting = u.table.waiting from ht.waiting]; exact hp.waiting

/-- Settles O8. -/
theorem endOfEventFrame : Obligations.EndOfEventFrame := conclude_frame

end Sys2Proof.Machine
end


section
/-!
SUPPORT. What the power allows (R83, R88): how much each operation of a settling may draw, why free is 0 or more at the end
of every event, and that the commands without such an end leave free as it stands.
-/

namespace Sys2Proof.Machine

open Host (Outcome)

/-! A state that draws no more than another -/

/-- Every pump that draws without a grant did so before, and no claim has grown. -/
structure Lighter (s t : State) : Prop where
  external : ∀ p, (t.pump p).external = true → (s.pump p).external = true
  pumps : ∀ p, (t.pump p).claim.getD 0 ≤ (s.pump p).claim.getD 0
  screens : ∀ n, (t.screen n).claim.getD 0 ≤ (s.screen n).claim.getD 0

theorem Lighter.refl (s : State) : Lighter s s := ⟨fun _ => id, fun _ => Nat.le_refl _, fun _ => Nat.le_refl _⟩

theorem Lighter.trans {s t u : State} (h : Lighter s t) (k : Lighter t u) : Lighter s u :=
  ⟨fun p x => h.external p (k.external p x), fun p => Nat.le_trans (k.pumps p) (h.pumps p),
    fun n => Nat.le_trans (k.screens n) (h.screens n)⟩

theorem Lighter.of_same {s t : State} (hp : t.pumps = s.pumps) (hn : t.screens = s.screens) : Lighter s t := by
  have hpump : ∀ p, t.pump p = s.pump p := fun p => congrArg (Six.get · p) hp
  have hscreen : ∀ n, t.screen n = s.screen n := fun n => congrArg (Two.get · n) hn
  exact ⟨fun p => by rw [hpump]; exact id, fun p => Nat.le_of_eq (by rw [hpump]), fun n => Nat.le_of_eq (by rw [hscreen])⟩

theorem EdgeFrame.lighter {s t : State} (h : EdgeFrame s t) : Lighter s t := .of_same h.pumps h.screens

theorem lighter_onPump (p : Ix6) (f : Pump → Pump) (s : State)
    (he : (f (s.pump p)).external = true → (s.pump p).external = true)
    (hc : (f (s.pump p)).claim.getD 0 ≤ (s.pump p).claim.getD 0) : Lighter s (s.onPump p f) where
  external q := by
    rw [State.onPump_pump]
    split
    · next e => subst e; exact he
    · exact id
  pumps q := by
    rw [State.onPump_pump]
    split
    · next e => subst e; exact hc
    · exact Nat.le_refl _
  screens _ := Nat.le_refl _

theorem lighter_onScreen (n : Ix2) (f : Screen → Screen) (s : State)
    (hc : (f (s.screen n)).claim.getD 0 ≤ (s.screen n).claim.getD 0) : Lighter s (s.onScreen n f) where
  external _ := id
  pumps _ := Nat.le_refl _
  screens m := by
    rw [State.onScreen_screen]
    split
    · next e => subst e; exact hc
    · exact Nat.le_refl _

/-! Free over a settling -/

theorem externalLoad_eq (s : State) :
    externalLoad s = (Ix6.all.map fun p => if (s.pump p).external then s.running.pumpUnits p else 0).sum := rfl

theorem claimSum_eq (s : State) :
    claimSum s = (Ix6.all.map fun p => (s.pump p).claim.getD 0).sum +
      (Ix2.all.map fun n => (s.screen n).claim.getD 0).sum := rfl

theorem PlantFrame.running {s t : State} (h : PlantFrame s t) : t.running = s.running := congrArg Store.running h.store

theorem PlantFrame.budget {s t : State} (h : PlantFrame s t) : Machine.budget t = Machine.budget s := by
  unfold Machine.budget
  rw [h.power, h.running]

theorem sum_map_le {α : Type} (l : List α) (f g : α → Nat) (h : ∀ a, f a ≤ g a) : (l.map f).sum ≤ (l.map g).sum := by
  induction l with
  | nil => exact Nat.le_refl _
  | cons a l ih =>
    rw [List.map_cons, List.map_cons, List.sum_cons, List.sum_cons]
    exact Nat.add_le_add (h a) ih

theorem sum_map_zero {α : Type} (l : List α) {f : α → Nat} (h : ∀ a, f a = 0) : (l.map f).sum = 0 := by
  induction l with
  | nil => rfl
  | cons a l ih => rw [List.map_cons, List.sum_cons, h, ih]

theorem Lighter.claimSum {s t : State} (h : Lighter s t) : Machine.claimSum t ≤ Machine.claimSum s := by
  rw [claimSum_eq, claimSum_eq]
  exact Nat.add_le_add (sum_map_le _ _ _ h.pumps) (sum_map_le _ _ _ h.screens)

theorem externalLoad_mono {s t : State} (hr : t.running = s.running)
    (h : ∀ p, (t.pump p).external = true → (s.pump p).external = true) : externalLoad t ≤ externalLoad s := by
  rw [externalLoad_eq, externalLoad_eq, hr]
  refine sum_map_le _ _ _ fun p => ?_
  split
  · exact Nat.le_of_eq (if_pos (h p ‹_›)).symm
  · exact Nat.zero_le _

theorem available_mono {s t : State} (hf : PlantFrame s t)
    (h : ∀ p, (t.pump p).external = true → (s.pump p).external = true) : available s ≤ available t := by
  unfold available
  rw [hf.budget]
  exact Nat.sub_le_sub_left (externalLoad_mono hf.running h) _

theorem Lighter.free {s t : State} (h : Lighter s t) (hf : PlantFrame s t) : Machine.free s ≤ Machine.free t := by
  have ha := available_mono hf h.external
  have hc := h.claimSum
  unfold Machine.free
  omega

/-! The operations of a settling that draw no more -/

theorem joinQueue_lighter (c : Claimant) (s : State) : Lighter s (joinQueue c s) := by
  unfold joinQueue
  split
  · exact .refl s
  · exact .of_same rfl rfl

theorem setMark_lighter (c : Claimant) (v : Bool) (s : State) : Lighter s (setMark c v s) := by
  cases c
  · exact lighter_onPump _ _ s id (Nat.le_refl _)
  · exact lighter_onScreen _ _ s (Nat.le_refl _)

theorem clearShed_lighter (c : Claimant) (s : State) : Lighter s (clearShed c s) :=
  (setMark_lighter ..).trans (offerEdges_frame ..).lighter

theorem markShed_lighter (c : Claimant) (short : Nat) (s : State) : Lighter s (markShed c short s) := by
  unfold markShed
  dsimp only
  split
  · exact setMark_lighter ..
  · exact (setMark_lighter ..).trans (raiseKind_frame ..).lighter

theorem waitNoMore_lighter (c : Claimant) (s : State) : Lighter s (waitNoMore c s) :=
  (Lighter.of_same (s := s) (t := leaveQueue c s) rfl rfl).trans (setMark_lighter ..)

theorem quitQueue_lighter (c : Claimant) (s : State) : Lighter s (quitQueue c s) :=
  (waitNoMore_lighter ..).trans (offerEdges_frame ..).lighter

theorem stopPump_lighter (r : StopReason) (p : Ix6) (s : State) : Lighter s (stopPump r p s) := by
  have h : Lighter s (s.onPump p (Pump.stop (s.running.stopWindow p) (s.running.runDown p))) :=
    lighter_onPump p _ s (fun h => by simp [Pump.external, Pump.stop] at h) (Nat.zero_le _)
  unfold stopPump
  dsimp only
  split
  · exact h.trans (.of_same rfl rfl)
  · exact h

theorem lighter_seq {p : Ix6} {s : State} {seq : Seq} (h : seq ≠ .hand) (k : seq ≠ .runOn) :
    Lighter s (s.onPump p fun q => { q with seq := seq }) :=
  lighter_onPump p _ s (fun e => by simp [Pump.external, h, k] at e) (Nat.le_refl _)

theorem unqueuePump_lighter (p : Ix6) (s : State) : Lighter s (unqueuePump p s) :=
  (lighter_seq (seq := .idle) (by decide) (by decide)).trans (quitQueue_lighter ..)

theorem queuePump_lighter (p : Ix6) (s : State) : Lighter s (queuePump p s) :=
  (lighter_seq (seq := .queued) (by decide) (by decide)).trans (joinQueue_lighter ..)

theorem beginOp_lighter (n : Ix2) (op : Operation) (s : State) : Lighter s (beginOp n op s) :=
  (lighter_onScreen n _ s (Nat.le_refl _)).trans (joinQueue_lighter ..)

theorem testIdle_lighter (n : Ix2) (s : State) : Lighter s (testIdle n s) := by
  have h : Lighter s (s.onScreen n fun sc => { sc with untested := false }) := lighter_onScreen n _ s (Nat.le_refl _)
  unfold testIdle
  dsimp only
  split
  · exact h.trans (beginOp_lighter ..)
  · exact h

theorem pauseRake_lighter (n : Ix2) (s : State) : Lighter s (pauseRake n s) :=
  (lighter_onScreen n _ s (Nat.zero_le _)).trans (joinQueue_lighter ..)

theorem writeCompletion_lighter (n : Ix2) (o : Nat) (r : RakeOutcome) (c : Nat) (s : State) :
    Lighter s (writeCompletion n o r c s) :=
  (lighter_onScreen n _ s (Nat.le_refl _)).trans (setFlag_frame ..).lighter

theorem finishPosition_lighter (n : Ix2) (s : State) : Lighter s (finishPosition n s) :=
  (writeCompletion_lighter ..).trans ((lighter_onScreen n (Screen.rest .held) _ (Nat.zero_le _)).trans
    (raiseKind_frame ..).lighter)

theorem finishHoming_lighter (n : Ix2) (s : State) : Lighter s (finishHoming n s) :=
  (lighter_onScreen n _ s (Nat.le_refl _)).trans
    ((writeCompletion_lighter ..).trans (lighter_onScreen n _ _ (Nat.zero_le _)))

theorem energise_lighter (n : Ix2) (st : RakeState) (d : Dir) (s : State) : Lighter s (energise n st d s) :=
  lighter_onScreen n _ s (Nat.le_refl _)

theorem checkLimit_lighter (n : Ix2) (s : State) : Lighter s (checkLimit n s) := by
  unfold checkLimit
  dsimp only
  split
  · split
    · exact lighter_onScreen n _ s (Nat.le_refl _)
    · exact .refl s
  · split
    · exact lighter_onScreen n _ s (Nat.le_refl _)
    · exact .refl s
  · split
    · exact finishHoming_lighter ..
    · exact .refl s
  · split
    · exact (lighter_onScreen n _ s (Nat.le_refl _)).trans (finishPosition_lighter ..)
    · split
      · exact finishPosition_lighter ..
      · exact .refl s
  · exact .refl s

theorem beginLeg_lighter (n : Ix2) (st : RakeState) (d : Dir) (s : State) : Lighter s (beginLeg n st d s) :=
  (lighter_onScreen n _ s (Nat.le_refl _)).trans ((energise_lighter ..).trans (checkLimit_lighter ..))

theorem firstStage_lighter (n : Ix2) (s : State) : Lighter s (firstStage n s) := by
  unfold firstStage
  split
  · exact (lighter_onScreen n _ s (Nat.le_refl _)).trans (beginLeg_lighter ..)
  · exact (lighter_onScreen n _ s (Nat.le_refl _)).trans (beginLeg_lighter ..)
  · exact beginLeg_lighter ..
  · split
    · exact finishPosition_lighter ..
    · split
      · exact beginLeg_lighter ..
      · exact beginLeg_lighter ..
  · exact .refl s

theorem endReverse_lighter (n : Ix2) (s : State) : Lighter s (endReverse n s) :=
  (lighter_onScreen n _ s (Nat.le_refl _)).trans (energise_lighter ..)

theorem limitInReverse_lighter (n : Ix2) (b : Bool) (s : State) : Lighter s (limitInReverse n b s) := by
  unfold limitInReverse
  split
  · exact (lighter_onScreen n _ s (Nat.le_refl _)).trans (endReverse_lighter ..)
  · exact endReverse_lighter ..

theorem enterReversing_lighter (n : Ix2) (s : State) : Lighter s (enterReversing n s) :=
  (lighter_onScreen n _ s (Nat.le_refl _)).trans (energise_lighter ..)

theorem resumeStage_lighter (n : Ix2) (st : RakeState) (s : State) : Lighter s (resumeStage n st s) := by
  cases st
  case gripping | discharging => exact lighter_onScreen n _ s (Nat.le_refl _)
  case descending | ascending | homing | positioning => exact (energise_lighter ..).trans (checkLimit_lighter ..)
  case reversing =>
    unfold resumeStage
    dsimp only
    split
    · exact (enterReversing_lighter ..).trans (limitInReverse_lighter ..)
    · split
      · exact (enterReversing_lighter ..).trans (limitInReverse_lighter ..)
      · exact enterReversing_lighter ..
  all_goals exact .refl s

/-! Sheds (R88) -/

theorem shed_lighter (short : Nat) (c : Claimant) (s : State) : Lighter s (shed short c s) := by
  have h : Lighter s (setFlag .power (markShed c short s)) := (markShed_lighter ..).trans (.of_same rfl rfl)
  unfold shed
  cases c
  · exact h.trans (stopPump_lighter ..)
  · exact h.trans (pauseRake_lighter ..)

theorem shedNext_lighter (short : Nat) (s : State) (c : Claimant) : Lighter s (shedNext short s c) := by
  unfold shedNext
  split
  · exact shed_lighter ..
  · exact .refl s

theorem shedNext_frame (short : Nat) (s : State) (c : Claimant) : PlantFrame s (shedNext short s c) := by
  unfold shedNext
  split
  · exact shed_frame ..
  · exact .refl s

theorem joinQueue_screen (c : Claimant) (n : Ix2) (s : State) : (joinQueue c s).screen n = s.screen n := by
  unfold joinQueue
  split <;> rfl

theorem stopPump_pump (r : StopReason) (p q : Ix6) (s : State) : (stopPump r p s).pump q =
    if q = p then (s.pump q).stop (s.running.stopWindow p) (s.running.runDown p) else s.pump q := by
  unfold stopPump
  dsimp only
  split
  · exact State.onPump_pump ..
  · exact State.onPump_pump ..

/-- A claim shed is held no more. -/
theorem shed_claim (short : Nat) (c : Claimant) (s : State) : claimOf (shed short c s) c = none := by
  cases c with
  | pump p =>
    show ((stopPump .shed p _).pump p).claim = none
    rw [stopPump_pump, if_pos rfl]
    rfl
  | rake n =>
    show ((pauseRake n _).screen n).claim = none
    unfold pauseRake
    rw [joinQueue_screen, State.onScreen_screen, if_pos rfl]

/-- The units a claimant holds. -/
theorem Lighter.claimOf {s t : State} (h : Lighter s t) : ∀ c : Claimant,
    (Machine.claimOf t c).getD 0 ≤ (Machine.claimOf s c).getD 0
  | .pump p => h.pumps p
  | .rake n => h.screens n

theorem foldl_shedNext_frame (short : Nat) (l : List Claimant) (s : State) :
    PlantFrame s (l.foldl (shedNext short) s) := plant_foldl _ (shedNext_frame short) l s

theorem foldl_shedNext_lighter (short : Nat) (l : List Claimant) (s : State) :
    Lighter s (l.foldl (shedNext short) s) := foldl_frame Lighter .refl .trans _ (shedNext_lighter short) l s

/-- After the turns of some claimants, free is 0 or more, or none of them holds a unit. -/
theorem foldl_shedNext_claims (short : Nat) (l : List Claimant) (s : State) :
    0 ≤ free (l.foldl (shedNext short) s) ∨ ∀ c ∈ l, (claimOf (l.foldl (shedNext short) s) c).getD 0 = 0 := by
  induction l generalizing s with
  | nil => exact .inr fun c hc => absurd hc List.not_mem_nil
  | cons a l ih =>
    rw [List.foldl_cons]
    have hrest : Lighter (shedNext short s a) (l.foldl (shedNext short) (shedNext short s a)) :=
      foldl_shedNext_lighter ..
    have hfree := hrest.free (foldl_shedNext_frame short l (shedNext short s a))
    obtain h | h := ih (shedNext short s a)
    · exact .inl h
    by_cases hneg : free s < 0
    · refine .inr fun c hc => ?_
      obtain rfl | hc := List.mem_cons.mp hc
      · have hnone : (claimOf (shedNext short s c) c).getD 0 = 0 := by
          unfold shedNext
          split
          · rw [shed_claim]; rfl
          · next hcond =>
            simp only [hneg, decide_true, Bool.true_and, Option.not_isSome_iff_eq_none] at hcond
            rw [hcond]; rfl
        exact Nat.le_zero.mp (Nat.le_trans (hrest.claimOf c) (Nat.le_of_eq hnone))
      · exact h c hc
    · have hsame : shedNext short s a = s := by
        unfold shedNext
        rw [if_neg (by simp [hneg])]
      rw [hsame] at hfree ⊢
      exact .inl (Int.le_trans (Int.not_lt.mp hneg) hfree)

theorem mem_shedOrder {s : State} (h : LadderOk s.duty.ladder) : ∀ c : Claimant, c ∈ shedOrder s
  | .pump p => by
    unfold shedOrder
    simp [h.mem p]
  | .rake n => by
    unfold shedOrder
    cases hb : (s.screen n).blocked <;> cases n <;> simp [hb]

theorem claimSum_zero {s : State} (h : ∀ c, (claimOf s c).getD 0 = 0) : claimSum s = 0 := by
  have hp : ∀ p, (s.pump p).claim.getD 0 = 0 := fun p => h (.pump p)
  have hn : ∀ n, (s.screen n).claim.getD 0 = 0 := fun n => h (.rake n)
  rw [claimSum_eq, sum_map_zero _ hp, sum_map_zero _ hn]

/-- Free is 0 or more where no claim is held. -/
theorem free_of_unclaimed {s : State} (h : claimSum s = 0) : 0 ≤ free s := by
  unfold free
  rw [h]
  exact Int.natCast_nonneg _

/-- Claims are shed until free is 0 or more (R88), for a ladder that names every pump. -/
theorem shedAll_free {s : State} (h : LadderOk s.duty.ladder) : 0 ≤ free (shedAll s) := by
  unfold shedAll
  obtain hk | hk := foldl_shedNext_claims (free s).natAbs (shedOrder s) s
  · exact hk
  · exact free_of_unclaimed (claimSum_zero fun c => hk c (mem_shedOrder h c))

/-! Grants (R86) -/

/-- A claim taken for some units costs free no more than those units. -/
theorem free_claim {s t : State} {units : Nat} (hf : PlantFrame s t)
    (he : ∀ p, (t.pump p).external = true → (s.pump p).external = true) (hc : claimSum t ≤ claimSum s + units) :
    free s - units ≤ free t := by
  have ha := available_mono hf he
  unfold free
  omega

theorem claimSum_pump {s t : State} {p : Ix6} {units : Nat} (hp : (t.pump p).claim.getD 0 ≤ units)
    (hq : ∀ q, q ≠ p → (t.pump q).claim.getD 0 ≤ (s.pump q).claim.getD 0)
    (hn : ∀ n, (t.screen n).claim.getD 0 ≤ (s.screen n).claim.getD 0) : claimSum t ≤ claimSum s + units := by
  have h1 := hq .i1; have h2 := hq .i2; have h3 := hq .i3; have h4 := hq .i4; have h5 := hq .i5; have h6 := hq .i6
  have n1 := hn .i1; have n2 := hn .i2
  rw [claimSum_eq, claimSum_eq]
  simp only [Ix6.all, Ix2.all, List.map_cons, List.map_nil, List.sum_cons, List.sum_nil]
  cases p <;> simp only [ne_eq, reduceCtorEq, not_false_eq_true, forall_const, not_true_eq_false,
    false_implies] at h1 h2 h3 h4 h5 h6 <;> omega

theorem claimSum_screen {s t : State} {n : Ix2} {units : Nat} (hn : (t.screen n).claim.getD 0 ≤ units)
    (hm : ∀ m, m ≠ n → (t.screen m).claim.getD 0 ≤ (s.screen m).claim.getD 0)
    (hp : ∀ p, (t.pump p).claim.getD 0 ≤ (s.pump p).claim.getD 0) : claimSum t ≤ claimSum s + units := by
  have hpumps := sum_map_le Ix6.all _ _ hp
  have h1 := hm .i1; have h2 := hm .i2
  rw [claimSum_eq, claimSum_eq]
  simp only [Ix2.all, List.map_cons, List.map_nil, List.sum_cons, List.sum_nil]
  cases n <;> simp only [ne_eq, reduceCtorEq, not_false_eq_true, forall_const, not_true_eq_false,
    false_implies] at h1 h2 <;> omega

theorem grantPump_pump (p q : Ix6) (s : State) : (grantPump p s).pump q =
    if q = p then (s.pump q).start s.running p s.clock.uptime else s.pump q := by
  unfold grantPump
  dsimp only
  rw [(offerEdges_frame _ _).pump q]
  exact State.onPump_pump ..

theorem grantPump_screen (p : Ix6) (n : Ix2) (s : State) : (grantPump p s).screen n = s.screen n := by
  unfold grantPump
  dsimp only
  rw [(offerEdges_frame _ _).screen n]
  rfl

theorem grantPump_free (p : Ix6) (s : State) : free s - s.running.pumpUnits p ≤ free (grantPump p s) := by
  refine free_claim (grantPump_frame p s) (fun q => ?_) (claimSum_pump (p := p) ?_ (fun q hq => ?_) fun n => ?_)
  · rw [grantPump_pump]
    split
    · exact fun h => by simp [Pump.external, Pump.start, Pump.review] at h
    · exact id
  · rw [grantPump_pump, if_pos rfl]; exact Nat.le_refl _
  · exact Nat.le_of_eq (by rw [grantPump_pump, if_neg hq])
  · exact Nat.le_of_eq (by rw [grantPump_screen])

/-- What a granted rake goes on to draws no more than its claim. -/
theorem grantRake_lighter (n : Ix2) (s : State) :
    Lighter (s.onScreen n fun sc => { sc with claim := some (s.running.rakeUnits n) }) (grantRake n s) := by
  unfold grantRake
  dsimp only
  refine (clearShed_lighter (.rake n) _).trans ?_
  split
  · exact (lighter_onScreen n _ _ (Nat.le_refl _)).trans (resumeStage_lighter ..)
  · exact firstStage_lighter ..

theorem grantRake_free (n : Ix2) (s : State) : free s - s.running.rakeUnits n ≤ free (grantRake n s) := by
  have h := grantRake_lighter n s
  refine free_claim (grantRake_frame n s) h.external
    (claimSum_screen (n := n) (Nat.le_trans (h.screens n) ?_) (fun m hm => Nat.le_trans (h.screens m) ?_) h.pumps)
  · rw [State.onScreen_screen, if_pos rfl]; exact Nat.le_refl _
  · exact Nat.le_of_eq (by rw [State.onScreen_screen, if_neg hm])

/-- A grant that the free units cover leaves free at 0 or more. -/
theorem grant_free {c : Claimant} {s : State} (h : grantable s c = true) : 0 ≤ free (grant c s) := by
  cases c with
  | pump p =>
    have hu : (s.running.pumpUnits p : Int) ≤ free s := by
      simp only [grantable, Bool.and_eq_true, decide_eq_true_eq] at h
      exact h.1.1
    have hg : free s - s.running.pumpUnits p ≤ free (grant (.pump p) s) := grantPump_free p (leaveQueue (.pump p) s)
    omega
  | rake n =>
    have hu : (s.running.rakeUnits n : Int) ≤ free s := of_decide_eq_true h
    have hg : free s - s.running.rakeUnits n ≤ free (grant (.rake n) s) := grantRake_free n (leaveQueue (.rake n) s)
    omega

/-! The moves of an event's end -/

theorem formCalled_free (s : State) : free (formCalled s) = free s := by
  have hp : ∀ p, ((formCalled s).pump p).claim = (s.pump p).claim ∧
      ((formCalled s).pump p).external = (s.pump p).external := fun p => by cases p <;> exact ⟨rfl, rfl⟩
  have hext : externalLoad (formCalled s) = externalLoad s := by
    simp only [externalLoad_eq, (hp _).2]
    rfl
  have hsum : claimSum (formCalled s) = claimSum s := by
    simp only [claimSum_eq, (hp _).1]
    rfl
  unfold free available
  rw [hext, hsum]
  rfl

/-- The next move leaves free at 0 or more: it sheds where free is negative, and else it draws no more, or grants what
free covers. -/
theorem nextMove_free {s : State} {f : State → State} (hl : LadderOk s.duty.ladder) (h : nextMove s = some f) :
    0 ≤ free (f s) := by
  unfold nextMove at h
  split at h
  · cases h; exact shedAll_free hl
  next hshed =>
  have hs : 0 ≤ free s := by
    refine Classical.byContradiction fun hneg => ?_
    have hzero : claimSum s = 0 := Classical.byContradiction fun hne =>
      hshed (by simp [Int.not_le.mp hneg, hne])
    exact hneg (free_of_unclaimed hzero)
  have hstep : ∀ {t : State}, Lighter s t → PlantFrame s t → 0 ≤ free t := fun hlt hf => Int.le_trans hs (hlt.free hf)
  split at h
  · cases h; exact hstep (stopPump_lighter ..) (stopPump_frame ..)
  split at h
  · cases h; exact hstep (unqueuePump_lighter ..) (unqueuePump_frame ..)
  split at h
  · cases h; exact hstep (queuePump_lighter ..) (queuePump_frame ..)
  split at h
  · next c hc =>
    cases h
    exact grant_free (Option.filter_eq_some_iff.mp hc).2
  · obtain ⟨n, -, rfl⟩ := Option.map_eq_some_iff.mp h
    exact hstep (testIdle_lighter ..) (testIdle_frame ..)

/-- No move is left: free is 0 or more. -/
theorem nextMove_none_free {s : State} (h : nextMove s = none) : 0 ≤ free s := by
  unfold nextMove at h
  split at h
  · cases h
  next hshed =>
    refine Classical.byContradiction fun hneg => ?_
    have hne : claimSum s ≠ 0 := fun hzero => hneg (free_of_unclaimed hzero)
    exact hshed (by simp [Int.not_le.mp hneg, hne])

/-- The moves keep free at 0 or more, and the first of them makes it so. -/
theorem settleMoves_free (k : Nat) {s : State} (hl : LadderOk s.duty.ladder) (h : 0 ≤ free s ∨ k ≠ 0) :
    0 ≤ free (settleMoves k s) := by
  induction k generalizing s with
  | zero => exact (formCalled_free s).symm ▸ h.resolve_right (fun e => e rfl)
  | succ k ih =>
    unfold settleMoves
    dsimp only
    have hl1 := (formCalled_frame s).ladder hl
    split
    · next f hf => exact ih ((nextMove_frame hf _).ladder hl1) (.inl (nextMove_free hl1 hf))
    · next hnone => exact nextMove_none_free hnone

theorem clearIdleShed_lighter (s : State) : Lighter s (clearIdleShed s) := by
  refine foldl_frame Lighter .refl .trans _ (fun s p => ?_) _ s
  split
  · exact clearShed_lighter ..
  · exact .refl s

theorem testAck_lighter (s : State) : Lighter s (testAck s) := by
  unfold testAck
  split
  · exact .of_same rfl rfl
  · exact .refl s

/-- What free is formed from. -/
theorem free_congr {s t : State} (hp : t.pumps = s.pumps) (hn : t.screens = s.screens) (hw : t.power = s.power)
    (hc : t.store = s.store) : free t = free s := by
  have hb : budget t = budget s := by unfold budget State.running; rw [hw, hc]
  have he : externalLoad t = externalLoad s := by unfold externalLoad State.pump State.running; rw [hp, hc]
  have hs : claimSum t = claimSum s := by unfold claimSum; rw [hp, hn]
  unfold free available
  rw [hb, he, hs]

theorem settle_free {s : State} (h : LadderOk s.duty.ladder) : 0 ≤ free (settle s) := by
  have hmoves : 0 ≤ free (settleMoves moveBound s) := settleMoves_free _ h (.inr (Nat.succ_ne_zero 63))
  unfold settle
  generalize settleMoves moveBound s = u at hmoves ⊢
  exact Int.le_trans (Int.le_trans hmoves ((clearIdleShed_lighter u).free (clearIdleShed_frame u)))
    ((testAck_lighter _).free (testAck_frame _))

/-- The outputs formed and what the transmitter takes leave free as it stands. -/
theorem finish_free (s : State) : free (finish s) = free s := by
  have hsat := testSaturation_frame s
  have hsend := transmit_frame (annunciate (testSaturation s))
  exact free_congr (hsend.pumps.trans hsat.pumps) (hsend.screens.trans hsat.screens) (hsend.power.trans hsat.power)
    (hsend.store.trans hsat.store)

/-- At the end of an event free is 0 or more (R83, R88). -/
theorem conclude_free {s : State} (h : LadderOk s.duty.ladder) : 0 ≤ free (conclude s) :=
  Int.le_trans (settle_free h) (Int.le_of_eq (finish_free _).symm)

end Sys2Proof.Machine
end


section
/-!
SUPPORT. Which commands end an event and which touch nothing that free is formed from: the claims within the available
units over a step (O3).
-/

namespace Sys2Proof.Machine

open Host (Outcome)

/-- A state with the ladder whole and free at 0 or more goes to one. -/
structure Sound (s t : State) : Prop where
  power : PowerOk s → PowerOk t

theorem Sound.refl (s : State) : Sound s s := ⟨id⟩

theorem Sound.trans {s t u : State} (h : Sound s t) (k : Sound t u) : Sound s u := ⟨fun x => k.power (h.power x)⟩

theorem sound_conclude {s u : State} (h : Keeps s u) : Sound s (conclude u) where
  power hs := have hl := h.ladder hs.1; ⟨(conclude_keeps u).ladder hl, conclude_free hl⟩

theorem sound_of_free {s t : State} (h : t.duty.ladder = s.duty.ladder) (hf : free t = free s) : Sound s t :=
  ⟨fun ⟨hl, hs⟩ => ⟨h ▸ hl, hf ▸ hs⟩⟩

theorem sound_same {s t : State} (hd : t.duty = s.duty) (hp : t.pumps = s.pumps) (hn : t.screens = s.screens)
    (hw : t.power = s.power) (hc : t.store.running = s.store.running) : Sound s t :=
  sound_of_free (congrArg Duty.ladder hd) <| by
    unfold free available budget externalLoad claimSum State.pump State.running
    rw [hp, hn, hw, hc]

theorem sound_port (f : Port → Port) (s : State) : Sound s (s.onPort f) := sound_same rfl rfl rfl rfl rfl

theorem sound_link (f : Link → Link) (s : State) : Sound s (s.onLink f) := sound_same rfl rfl rfl rfl rfl

/-- A pump keeps what free is formed from. -/
theorem sound_pump (p : Ix6) (f : Pump → Pump) (s : State)
    (h : ∀ q, (f q).external = q.external ∧ (f q).claim = q.claim) : Sound s (s.onPump p f) := by
  have hpump : ∀ q, ((s.onPump p f).pump q).external = (s.pump q).external ∧
      ((s.onPump p f).pump q).claim = (s.pump q).claim := by
    intro q
    rw [State.onPump_pump]
    split
    · exact h _
    · exact ⟨rfl, rfl⟩
  refine sound_of_free rfl ?_
  have hext : externalLoad (s.onPump p f) = externalLoad s := by
    simp only [externalLoad_eq, (hpump _).1]
    rfl
  have hsum : claimSum (s.onPump p f) = claimSum s := by
    simp only [claimSum_eq, (hpump _).2]
    rfl
  unfold free available
  rw [hext, hsum]
  rfl

/-- A screen keeps its claim. -/
theorem sound_screen (n : Ix2) (f : Screen → Screen) (s : State) (h : ∀ a, (f a).claim = a.claim) :
    Sound s (s.onScreen n f) := by
  have hscreen : ∀ m, ((s.onScreen n f).screen m).claim = (s.screen m).claim := by
    intro m
    rw [State.onScreen_screen]
    split
    · exact h _
    · rfl
  refine sound_of_free rfl ?_
  have hsum : claimSum (s.onScreen n f) = claimSum s := by
    simp only [claimSum_eq, hscreen]
    rfl
  unfold free
  rw [hsum]
  rfl

theorem sound_transmit (s : State) : Sound s (transmit s) :=
  have h := transmit_frame s
  sound_same h.duty h.pumps h.screens h.power (congrArg Store.running h.store)

/-! Panel commands -/

theorem reply_sound (c : ReplyCode) (bs : List Byte) (s : State) : Sound s (reply c bs s) :=
  sound_port (fun p => { p with phase := .result (byte c.code :: bs) }) s

/-- A command whose effect the end of its event follows. -/
theorem settleReply_sound {s : State} {r : ReplyCode × State} (h : Keeps s r.2) : Sound s (settleReply r) :=
  sound_conclude (h.trans (reply_keeps ..))

theorem endStream_sound (c : ReplyCode) (d r : Nat) (s : State) : Sound s (endStream c d r s) :=
  (sound_port _ s).trans (reply_sound ..)

theorem seekRecord_sound (st : Stream) (s : State) : Sound s (seekRecord st s) := by
  unfold seekRecord
  split
  · exact sound_port _ s
  · exact endStream_sound ..

theorem afterRecord_sound (tc : Bool) (st : Stream) (s : State) : Sound s (afterRecord tc st s) := by
  unfold afterRecord
  dsimp only
  split
  · exact endStream_sound ..
  split
  · exact endStream_sound ..
  · exact seekRecord_sound ..

theorem takeStreamByte_sound (tc : Bool) (st : Stream) (s : State) : Sound s (takeStreamByte tc st s) := by
  unfold takeStreamByte
  split
  · exact .refl s
  · exact afterRecord_sound ..
  split
  · exact endStream_sound ..
  · exact sound_port _ s

theorem portResets_sound (s : State) : Sound s (portResets s) := sound_same rfl rfl rfl rfl rfl

theorem cmdInhibit_sound (p : Nat) (s : State) : Sound s (cmdInhibit p s) := by
  unfold cmdInhibit
  split
  · split
    · exact reply_sound ..
    · exact settleReply_sound (setInhibit_keeps ..)
  · exact reply_sound ..

theorem cmdRelease_sound (p : Nat) (s : State) : Sound s (cmdRelease p s) := by
  unfold cmdRelease
  split
  · split
    · exact settleReply_sound (clearInhibit_keeps ..)
    · exact reply_sound ..
  · exact reply_sound ..

theorem cmdSetOrder_sound (ns : List Nat) (s : State) : Sound s (cmdSetOrder ns s) := by
  unfold cmdSetOrder
  split
  · next l h =>
    split
    · exact reply_sound ..
    · exact settleReply_sound ⟨fun _ => ladderOf_ok h, id, id, id, id⟩
  · exact reply_sound ..

theorem cmdLoadTotals_sound (p r n : Nat) (s : State) : Sound s (cmdLoadTotals p r n s) := by
  unfold cmdLoadTotals
  split
  · split
    · refine (sound_pump _ _ s ?_).trans (reply_sound ..)
      exact fun _ => ⟨rfl, rfl⟩
    · exact reply_sound ..
  · exact reply_sound ..

theorem cmdSense_sound (n : Nat) (s : State) : Sound s (cmdSense n s) := by
  unfold cmdSense
  split
  · split
    · refine (sound_screen _ _ s ?_).trans (reply_sound ..)
      exact fun _ => rfl
    · exact reply_sound ..
  · exact reply_sound ..

theorem cmdReadConditions_sound (a b c d e f : Nat) (s : State) : Sound s (cmdReadConditions a b c d e f s) := by
  unfold cmdReadConditions
  split
  · split
    · exact seekRecord_sound ..
    · exact reply_sound ..
  · exact reply_sound ..

theorem cmdAckAll_sound (a b c : Nat) (s : State) : Sound s (cmdAckAll a b c s) := by
  unfold cmdAckAll
  split
  · split
    · exact sound_conclude ((takeAckAll_keeps ..).trans (reply_keeps ..))
    · exact reply_sound ..
  · exact reply_sound ..

theorem cmdShelve_sound (a b c : Nat) (s : State) : Sound s (cmdShelve a b c s) := by
  unfold cmdShelve
  split
  · exact reply_sound ..
  split
  · split
    · exact settleReply_sound (shelveSlot_keeps ..)
    · exact reply_sound ..
  · exact reply_sound ..

theorem cmdUnshelve_sound (a b : Nat) (s : State) : Sound s (cmdUnshelve a b s) := by
  unfold cmdUnshelve
  split
  · exact reply_sound ..
  split
  · exact settleReply_sound (unshelveSlot_frame ..).keeps
  · exact reply_sound ..

theorem cmdPost_sound (a b c : Nat) (x : List Byte) (s : State) : Sound s (cmdPost a b c x s) := by
  unfold cmdPost
  split
  · split
    · exact sound_conclude ((takePost_keeps ..).trans (reply_keeps ..))
    · exact reply_sound ..
  · exact reply_sound ..

theorem cmdLoadSettings_sound (a b c : Nat) (s : State) : Sound s (cmdLoadSettings a b c s) := by
  unfold cmdLoadSettings
  split
  · exact sound_same rfl rfl rfl rfl rfl
  · exact reply_sound ..

theorem cmdCommit_sound (s : State) : Sound s (cmdCommit s) := by
  unfold cmdCommit
  split
  · exact reply_sound ..
  split
  · exact (sound_port _ s).trans (reply_sound ..)
  · exact sound_conclude ((applyCommit_keeps s).trans (keepsPort _ _ id))

theorem cmdSetClock_sound (a b : Nat) (s : State) : Sound s (cmdSetClock a b s) := by
  unfold cmdSetClock
  split
  · exact sound_same rfl rfl rfl rfl rfl
  · exact reply_sound ..

/-- The rake commands: what a screen's command does, or no screen. -/
theorem rakeCommand_sound (screen : Nat) (f : Ix2 → State → ReplyCode × State)
    (h : ∀ n s, Keeps s (f n s).2) (s : State) : Sound s (match two? screen with
      | some n => settleReply (f n s)
      | none => reply .outOfRange [] s) := by
  split
  · exact settleReply_sound (h ..)
  · exact reply_sound ..

/-- A panel command, whatever its code and its parameters. -/
theorem runCommand_sound (code : Nat) (p : List Byte) (s : State) : Sound s (runCommand code p s) := by
  unfold runCommand
  split
  · exact reply_sound ..
  · exact reply_sound ..
  · exact reply_sound ..
  · unfold cmdReadPump; split <;> exact reply_sound ..
  · exact cmdInhibit_sound ..
  · exact cmdRelease_sound ..
  · exact settleReply_sound (takeReset_keeps ..)
  · exact cmdSetOrder_sound ..
  · exact cmdLoadTotals_sound ..
  · unfold cmdReadScreen; split <;> exact reply_sound ..
  · exact rakeCommand_sound _ takeRakeCycle takeRakeCycle_keeps s
  · exact rakeCommand_sound _ takeRakeHome takeRakeHome_keeps s
  · exact rakeCommand_sound _ (takeRakePosition · _) (takeRakePosition_keeps · _) s
  · exact rakeCommand_sound _ (takeRakeFinish · _) (takeRakeFinish_keeps · _) s
  · exact cmdSense_sound ..
  · exact cmdReadConditions_sound ..
  · exact reply_sound ..
  · exact settleReply_sound (takeAcknowledge_keeps ..)
  · exact cmdAckAll_sound ..
  · exact cmdShelve_sound ..
  · exact cmdUnshelve_sound ..
  · exact settleReply_sound (takeRetire_keeps ..)
  · exact sound_conclude ((takeRetireDormant_keeps s).trans (reply_keeps ..))
  · exact cmdPost_sound ..
  · exact settleReply_sound (takeReturn_keeps ..)
  · exact settleReply_sound (takeSilence_keeps s)
  · exact cmdLoadSettings_sound ..
  · unfold cmdReadSettings; split <;> exact reply_sound ..
  · exact cmdCommit_sound s
  · exact sound_same rfl rfl rfl rfl rfl
  · exact cmdSetClock_sound ..
  · exact reply_sound ..
  · exact reply_sound ..
  · exact (sound_port _ s).trans (reply_sound ..)
  · unfold cmdSetEnables
    split
    · exact (sound_port _ s).trans (reply_sound ..)
    · exact reply_sound ..
  · exact portResets_sound s

/-! Strobes, frames and events -/

theorem dataWrite_sound (b : Byte) (s : State) : Sound s (dataWrite b s) := by
  unfold dataWrite
  split
  · exact .refl s
  split
  · unfold takeCode
    dsimp only
    refine (sound_port (fun p => { p with protocol := false }) s).trans ?_
    split
    · exact reply_sound ..
    · exact runCommand_sound ..
    · exact sound_port ..
  · unfold takeParameter
    split
    · exact runCommand_sound ..
    · exact sound_port _ s
  · exact sound_port _ s
  · exact sound_port _ s
  · exact sound_port _ s

theorem writeBytes_sound (bs : List Byte) (s : State) : Sound s (writeBytes bs s) :=
  foldl_frame Sound .refl .trans _ (fun s b => dataWrite_sound b s) bs s

theorem readData_sound (tc : Bool) (s : State) : Sound s (readData tc s) := by
  unfold readData
  split
  · exact .refl s
  split
  · exact (sound_port _ s).trans (takeStreamByte_sound ..)
  all_goals exact (sound_port _ s).trans (sound_port ..)

theorem writeStatus_sound (b : Byte) (s : State) : Sound s (writeStatus b s) := by
  unfold writeStatus
  split
  · exact .refl s
  split
  · exact portResets_sound s
  · exact sound_port _ s

theorem arrive_sound (kind tag : Byte) (p : List Byte) (s : State) : Sound s (arrive kind tag p s) := by
  unfold arrive
  split
  · exact .refl s
  · exact sound_conclude ((hunt_keeps s).trans (takeFrame_keeps ..))

theorem badFrame_sound (s : State) : Sound s (badFrame s) := (sound_link _ s).trans (sound_link ..)

theorem takeByte_sound (bs : List Byte) (s : State) : Sound s (takeByte bs s) := by
  unfold takeByte
  split
  · exact .refl s
  split
  · exact badFrame_sound s
  split
  · split
    · exact arrive_sound ..
    · exact badFrame_sound s
  · exact sound_link _ s

theorem receiveByte_sound (b : Byte) (s : State) : Sound s (receiveByte b s) := by
  unfold receiveByte
  split
  · exact .refl s
  split
  · split
    · exact sound_link _ s
    · exact .refl s
  · exact takeByte_sound ..

theorem windowExpires_sound (s : State) : Sound s (windowExpires s) := by
  unfold windowExpires
  split
  · exact endStream_sound ..
  · exact .refl s

theorem releaseReset_sound (s : State) : Sound s (releaseReset s) := by
  have h := sound_port (fun p => { p with resetLine := false, resetTimer := none }) s
  unfold releaseReset
  dsimp only
  split
  · exact h.trans (portResets_sound _)
  · exact h

theorem coldStart_sound (s : State) : Sound s (coldStart s) := by
  refine ⟨fun hs => ?_⟩
  have hl := (coldStart_keeps s).ladder hs.1
  refine ⟨hl, ?_⟩
  have h1 := keeps_foldl raisePump raisePump_keeps Ix6.all (coldBlocks s)
  have hcold : LadderOk (coldBlocks s).duty.ladder := (coldBlocks_keeps s).ladder hs.1
  unfold coldStart
  dsimp only
  generalize Ix6.all.foldl raisePump (coldBlocks s) = s1 at h1 ⊢
  have h2 := keeps_foldl startRake startRake_keeps Ix2.all (raisePower s1)
  generalize Ix2.all.foldl startRake (raisePower s1) = s2 at h2 ⊢
  exact conclude_free ((((h1.trans (raisePower_keeps s1)).trans h2).trans
    ((startLink_keeps s2).trans (raiseSettings_keeps ..))).ladder hcold)

theorem tick_sound (s : State) : Sound s (tick s) := by
  have hpump : ∀ p, (tick s).pump p = (s.pump p).tick := fun p => Six.get_map ..
  have hscreen : ∀ n, (tick s).screen n = (s.screen n).tick := fun n => Two.get_map ..
  refine sound_of_free rfl ?_
  have hext : externalLoad (tick s) = externalLoad s := by
    simp only [externalLoad_eq, hpump]
    rfl
  have hsum : claimSum (tick s) = claimSum s := by
    simp only [claimSum_eq, hpump, hscreen]
    rfl
  unfold free available
  rw [hext, hsum]
  rfl

theorem lineChange_pump (l : SelectorLine) (f : Debounced → Debounced) (q : Pump) :
    (q.onLine l f).external = q.external ∧ (q.onLine l f).claim = q.claim := by cases l <;> exact ⟨rfl, rfl⟩

/-- A line that changes leaves its debounced state (R8, R38, R60, R81, R96). -/
theorem Debounced.change_state (v : Bool) (t : Nat) (d : Debounced) : (d.change v t).state = d.state := by
  unfold Debounced.change
  split <;> rfl

theorem inputChange_pump (i : PumpInput) (v : Bool) (t : Nat) (q : Pump) :
    (q.onInput i (Debounced.change v t)).external = q.external ∧
      (q.onInput i (Debounced.change v t)).claim = q.claim := by
  cases i
  · exact ⟨by simp only [Pump.external, Pump.onInput, Debounced.change_state]; rfl, rfl⟩
  · exact ⟨rfl, rfl⟩
  · exact ⟨rfl, rfl⟩

theorem powerLineChange_sound (l : PowerLine) (f : Debounced → Debounced) (s : State) :
    Sound s (s.onPower (Power.onLine l f)) := by cases l <;> exact sound_of_free rfl rfl

theorem eventSilent_sound {i : Instr} {s u : State} (h : eventSilent? i s = some u) : Sound s u := by
  cases i with
  | floatInputChange f v => exact some_rel h (sound_same rfl rfl rfl rfl rfl)
  | selectorLineChange p l v => exact some_rel h (sound_pump p _ s (lineChange_pump l _))
  | runSecondsTick p => exact some_rel h (sound_pump p _ s fun _ => ⟨rfl, rfl⟩)
  | pumpInputChange p i v => exact some_rel h (sound_pump p _ s (inputChange_pump i v 50))
  | powerLineChange l v => exact some_rel h (powerLineChange_sound l _ s)
  | rakeInputChange n i v => exact some_rel h (sound_screen n _ s fun _ => by cases i <;> rfl)
  | flashPhase => exact some_rel h (sound_same rfl rfl rfl rfl rfl)
  | statusWrite b => exact some_rel h (writeStatus_sound b s)
  | dataRead tc => exact some_rel h (readData_sound tc s)
  | invalidCommand c => exact some_rel h (dataWrite_sound c s)
  | byteWindowExpiry => exact some_rel h (windowExpires_sound s)
  | resetAssert => exact some_rel h (sound_port _ s)
  | resetRelease => exact some_rel h (releaseReset_sound s)
  | resetTimerExpiry | coldStart => exact some_rel h (coldStart_sound s)
  | frameCheckFail => exact some_rel h (badFrame_sound s)
  | framingError | interByteTimerExpiry => exact some_rel h (sound_link _ s)
  | frameSent | offerTimerExpiry => exact some_rel h ((sound_link _ s).trans (sound_transmit _))
  | statusTimerExpiry => exact some_rel h ((sound_link _ s).trans (sound_transmit _))
  | lossTimerExpiry =>
    exact some_rel h (((sound_link _ s).trans (sound_port ..)).trans (sound_transmit _))
  | clockTick => exact some_rel h (tick_sound s)
  | byteReceived b => exact some_rel h (receiveByte_sound b s)
  | _ => cases h

theorem exec_sound {i : Instr} {s t : State} (h : exec i s = .next t) : Sound s t :=
  exec_rel (.refl s) (writeBytes_sound · s) (arrive_sound · · · s)
    (fun _ hu _ => sound_conclude (eventBody_keeps hu)) (fun _ hu _ => eventSilent_sound hu) h

/-- Settles O3: the ladder is one of the promises of Laws/Keeps; for the claims, a command either ends an event, which
sheds until free is 0 or more, or touches nothing that free is formed from. -/
theorem stepKeepsLadderAndClaims : Obligations.StepKeepsLadderAndClaims :=
  ⟨fun _ _ hs h => (step_keeps h).ladder hs,
    fun s _ hs h => (step_rel (R := Sound) (.refl s) (fun _ => sound_same rfl rfl rfl rfl rfl) .trans
      (fun _ _ => exec_sound) h).power hs⟩

end Sys2Proof.Machine
end


section
/-!
SUPPORT. What the claim queue promises of one claimant (R85), which parts of the state one claimant's operations touch,
and how each operation of the Sequencer and the Rake Controller leaves its claimant.
-/

namespace Sys2Proof.Machine

/-! The promise for one claimant -/

/-- The sequencer states of a pump that waits for power or has it. -/
def Seq.seeks (q : Seq) : Bool := q = .queued || q = .starting || q = .running

/-- What QueueOk says of a pump, where `waits` says that it stands in the queue. -/
structure PumpFits (waits : Prop) (q : Pump) : Prop where
  queued : waits ↔ q.seq = .queued
  auto : q.seq = .queued ∨ q.seq = .starting ∨ q.seq = .running → q.selector = .auto
  claims : q.claim ≠ none → q.seq = .starting ∨ q.seq = .running

/-- What QueueOk says of a rake, where `waits` says that it stands in the queue. -/
structure RakeFits (waits : Prop) (a : Screen) : Prop where
  queued : waits ↔ a.rake = .waiting ∨ a.rake = .paused
  claims : a.claim ≠ none → a.rake.claimed = true
  operation : a.rake = .waiting ∨ a.rake = .paused ∨ a.rake.claimed = true → a.op ≠ .none
  saved : a.rake = .paused → ∃ st, a.saved = some st ∧ st.claimed = true
  motors : a.up = true ∨ a.down = true ∨ a.jamTimer ≠ none → a.rake.driven = true

/-- A claimant stands as the queue promises. -/
def Fits (s : State) : Claimant → Prop
  | .pump p => PumpFits (.pump p ∈ s.power.queue) (s.pump p)
  | .rake n => RakeFits (.rake n ∈ s.power.queue) (s.screen n)

theorem queueOk_iff (s : State) : QueueOk s ↔ s.power.queue.Nodup ∧ ∀ c, Fits s c := by
  constructor
  · intro h
    refine ⟨h.once, fun c => ?_⟩
    cases c with
    | pump p => exact ⟨h.pumps p, h.auto p, h.pumpClaims p⟩
    | rake n => exact ⟨h.rakes n, h.rakeClaims n, h.operations n, h.saved n, h.motors n⟩
  · rintro ⟨honce, h⟩
    have hp : ∀ p, PumpFits (.pump p ∈ s.power.queue) (s.pump p) := fun p => h (.pump p)
    have hn : ∀ n, RakeFits (.rake n ∈ s.power.queue) (s.screen n) := fun n => h (.rake n)
    exact ⟨honce, fun p => (hp p).queued, fun n => (hn n).queued, fun p => (hp p).auto, fun p => (hp p).claims,
      fun n => (hn n).claims, fun n => (hn n).operation, fun n => (hn n).saved, fun n => (hn n).motors⟩

theorem QueueOk.pumpFits {s : State} (h : QueueOk s) (p : Ix6) : PumpFits (.pump p ∈ s.power.queue) (s.pump p) :=
  ((queueOk_iff s).mp h).2 (.pump p)

theorem QueueOk.rakeFits {s : State} (h : QueueOk s) (n : Ix2) : RakeFits (.rake n ∈ s.power.queue) (s.screen n) :=
  ((queueOk_iff s).mp h).2 (.rake n)

/-- A pump that neither waits nor runs, and holds no claim. -/
theorem PumpFits.at_rest {w : Prop} {q : Pump} (hw : ¬w) (hs : q.seq.seeks = false) (hc : q.claim = none) :
    PumpFits w q := by
  simp only [Seq.seeks, Bool.or_eq_false_iff, decide_eq_false_iff_not] at hs
  obtain ⟨⟨hq, hst⟩, hr⟩ := hs
  exact ⟨⟨fun h => absurd h hw, fun h => absurd h hq⟩,
    fun h => (h.elim hq (Or.elim · hst hr)).elim, fun h => absurd hc h⟩

theorem PumpFits.unqueued {w : Prop} {q : Pump} (h : PumpFits w q) (hs : q.seq ≠ .queued) : ¬w :=
  fun x => hs (h.queued.mp x)

theorem PumpFits.unclaimed {w : Prop} {q : Pump} (h : PumpFits w q) (hs : q.seq ≠ .starting) (hr : q.seq ≠ .running) :
    q.claim = none := by
  refine Classical.byContradiction fun hc => ?_
  obtain e | e := h.claims hc
  · exact hs e
  · exact hr e

/-- The rake states with no place in the queue and no claim. -/
def RakeState.resting : RakeState → Bool
  | .unhomed | .idle | .held | .locked => true
  | _ => false

theorem Screen.motionless {a : Screen} (hu : a.up = false) (hd : a.down = false) (hj : a.jamTimer = none) :
    ¬(a.up = true ∨ a.down = true ∨ a.jamTimer ≠ none) := by
  rw [hu, hd, hj]
  simp

theorem RakeState.of_resting {r : RakeState} (h : r.resting = true) :
    ¬(r = .waiting ∨ r = .paused) ∧ r.claimed = false := by
  revert h
  cases r <;> decide

theorem RakeFits.at_rest {w : Prop} {a : Screen} (hw : ¬w) (hr : a.rake.resting = true) (hc : a.claim = none)
    (hu : a.up = false) (hd : a.down = false) (hj : a.jamTimer = none) : RakeFits w a := by
  obtain ⟨hq, hcl⟩ := RakeState.of_resting hr
  refine ⟨⟨fun h => absurd h hw, fun h => absurd h hq⟩, fun h => absurd hc h, ?_, fun h => absurd (.inr h) hq,
    fun h => absurd h (Screen.motionless hu hd hj)⟩
  rintro (h | h | h)
  · exact absurd (.inl h) hq
  · exact absurd (.inr h) hq
  · exact absurd h (by rw [hcl]; decide)

theorem RakeState.claimed_of_driven {r : RakeState} (h : r.driven = true) : r.claimed = true := by
  revert h
  cases r <;> decide

theorem RakeState.not_queued_of_claimed {r : RakeState} (h : r.claimed = true) : ¬(r = .waiting ∨ r = .paused) := by
  rintro (rfl | rfl) <;> cases h

/-- A rake in a stage of its operation. -/
theorem RakeFits.in_stage {w : Prop} {a : Screen} (hw : ¬w) (hr : a.rake.claimed = true) (ho : a.op ≠ .none)
    (hm : a.up = true ∨ a.down = true ∨ a.jamTimer ≠ none → a.rake.driven = true) : RakeFits w a :=
  have hq := RakeState.not_queued_of_claimed hr
  ⟨⟨fun h => absurd h hw, fun h => absurd h hq⟩, fun _ => hr, fun _ => ho, fun h => absurd (.inr h) hq, hm⟩

theorem RakeFits.unqueued {w : Prop} {a : Screen} (h : RakeFits w a) (hq : ¬(a.rake = .waiting ∨ a.rake = .paused)) :
    ¬w := fun x => hq (h.queued.mp x)

theorem RakeFits.stage {w : Prop} {a : Screen} (h : RakeFits w a) (hr : a.rake.claimed = true) : ¬w ∧ a.op ≠ .none :=
  ⟨h.unqueued (RakeState.not_queued_of_claimed hr), h.operation (.inr (.inr hr))⟩

theorem RakeFits.unclaimed {w : Prop} {a : Screen} (h : RakeFits w a) (hr : a.rake.claimed = false) : a.claim = none := by
  refine Classical.byContradiction fun hc => ?_
  exact absurd (h.claims hc) (by rw [hr]; decide)

/-- A rake out of the motor stages has its motor off and no jam timer. -/
theorem RakeFits.still {w : Prop} {a : Screen} (h : RakeFits w a) (hr : a.rake.driven = false) :
    a.up = false ∧ a.down = false ∧ a.jamTimer = none := by
  have hn : ¬(a.up = true ∨ a.down = true ∨ a.jamTimer ≠ none) := fun x => absurd (h.motors x) (by rw [hr]; decide)
  simp only [not_or, Bool.not_eq_true, ne_eq, Classical.not_not] at hn
  exact hn

/-! What one claimant's operations touch -/

/-- Nothing that the queue's promise or the clock and the store speak of, but one claimant's pump or screen and its place. -/
structure Only (c : Claimant) (s t : State) : Prop where
  clock : t.clock = s.clock
  store : t.store = s.store
  once : s.power.queue.Nodup → t.power.queue.Nodup
  queue : ∀ d, d ≠ c → (d ∈ t.power.queue ↔ d ∈ s.power.queue)
  pumps : ∀ p, .pump p ≠ c → t.pump p = s.pump p
  screens : ∀ n, .rake n ≠ c → t.screen n = s.screen n

theorem Only.refl (c : Claimant) (s : State) : Only c s s :=
  ⟨rfl, rfl, id, fun _ _ => Iff.rfl, fun _ _ => rfl, fun _ _ => rfl⟩

theorem Only.trans {c : Claimant} {s t u : State} (h : Only c s t) (k : Only c t u) : Only c s u :=
  ⟨k.clock.trans h.clock, k.store.trans h.store, fun x => k.once (h.once x),
    fun d hd => (k.queue d hd).trans (h.queue d hd), fun p hp => (k.pumps p hp).trans (h.pumps p hp),
    fun n hn => (k.screens n hn).trans (h.screens n hn)⟩

/-- The other claimants stand as they did. -/
theorem Only.queueOk {c : Claimant} {s t : State} (h : Only c s t) (hs : QueueOk s) (hc : Fits t c) : QueueOk t := by
  obtain ⟨honce, hfits⟩ := (queueOk_iff s).mp hs
  refine (queueOk_iff t).mpr ⟨h.once honce, fun d => ?_⟩
  by_cases hd : d = c
  · exact hd ▸ hc
  cases d with
  | pump p =>
    have hp : PumpFits (.pump p ∈ s.power.queue) (s.pump p) := hfits (.pump p)
    rw [← h.pumps p hd, ← propext (h.queue _ hd)] at hp
    exact hp
  | rake n =>
    have hn : RakeFits (.rake n ∈ s.power.queue) (s.screen n) := hfits (.rake n)
    rw [← h.screens n hd, ← propext (h.queue _ hd)] at hn
    exact hn

theorem only_of_same (c : Claimant) {s t : State} (hk : t.clock = s.clock) (hc : t.store = s.store)
    (hw : t.power.queue = s.power.queue) (hp : t.pumps = s.pumps) (hn : t.screens = s.screens) : Only c s t :=
  ⟨hk, hc, fun x => hw ▸ x, fun _ _ => by rw [hw], fun p _ => congrArg (Six.get · p) hp,
    fun n _ => congrArg (Two.get · n) hn⟩

theorem EdgeFrame.only (c : Claimant) {s t : State} (h : EdgeFrame s t) : Only c s t :=
  only_of_same c h.clock h.store (congrArg Power.queue h.power) h.pumps h.screens

theorem only_onPump (p : Ix6) (f : Pump → Pump) (s : State) : Only (.pump p) s (s.onPump p f) :=
  ⟨rfl, rfl, id, fun _ _ => Iff.rfl, fun q hq => by
    rw [State.onPump_pump, if_neg fun e => hq (congrArg Claimant.pump e)], fun _ _ => rfl⟩

theorem only_onScreen (n : Ix2) (f : Screen → Screen) (s : State) : Only (.rake n) s (s.onScreen n f) :=
  ⟨rfl, rfl, id, fun _ _ => Iff.rfl, fun _ _ => rfl, fun m hm => by
    rw [State.onScreen_screen, if_neg fun e => hm (congrArg Claimant.rake e)]⟩

/-! The queue itself -/

theorem mem_queueWith (s : State) (c d : Claimant) (q : List Claimant) : d ∈ queueWith s c q ↔ d = c ∨ d ∈ q := by
  unfold queueWith
  split
  · have hq : d ∈ q ↔ d ∈ q.takeWhile (isBlockedRake s) ∨ d ∈ q.dropWhile (isBlockedRake s) := by
      rw [← List.mem_append, List.takeWhile_append_dropWhile]
    rw [List.mem_append, List.mem_cons, hq]
    exact or_left_comm
  · rw [List.mem_append, List.mem_singleton, or_comm]

theorem nodup_queueWith {s : State} {c : Claimant} {q : List Claimant} (h : q.Nodup) (hc : c ∉ q) :
    (queueWith s c q).Nodup := by
  unfold queueWith
  split
  · have hperm : (q.takeWhile (isBlockedRake s) ++ c :: q.dropWhile (isBlockedRake s)).Perm (c :: q) :=
      List.perm_middle.trans (by rw [List.takeWhile_append_dropWhile])
    exact hperm.nodup_iff.mpr (List.nodup_cons.mpr ⟨hc, h⟩)
  · exact List.perm_append_comm.nodup_iff.mp (List.nodup_cons.mpr ⟨hc, h⟩)

theorem joinQueue_queue (c : Claimant) (s : State) :
    (joinQueue c s).power.queue = if c ∈ s.power.queue then s.power.queue else queueWith s c s.power.queue := by
  unfold joinQueue
  by_cases h : c ∈ s.power.queue
  · rw [if_pos (by simpa using h), if_pos h]
  · rw [if_neg (by simpa using h), if_neg h]
    rfl

theorem mem_joinQueue (c d : Claimant) (s : State) :
    d ∈ (joinQueue c s).power.queue ↔ d = c ∨ d ∈ s.power.queue := by
  rw [joinQueue_queue]
  split
  · next h => exact ⟨.inr, fun hd => hd.elim (fun e => e ▸ h) id⟩
  · exact mem_queueWith ..

theorem joinQueue_nodup {c : Claimant} {s : State} (h : s.power.queue.Nodup) : (joinQueue c s).power.queue.Nodup := by
  rw [joinQueue_queue]
  split
  · exact h
  · exact nodup_queueWith h ‹_›

theorem joinQueue_pump (c : Claimant) (p : Ix6) (s : State) : (joinQueue c s).pump p = s.pump p := by
  unfold joinQueue
  split <;> rfl

theorem mem_leaveQueue (c d : Claimant) (s : State) :
    d ∈ (leaveQueue c s).power.queue ↔ d ∈ s.power.queue ∧ d ≠ c := by
  show d ∈ s.power.queue.filter (· ≠ c) ↔ _
  rw [List.mem_filter, decide_eq_true_iff]

theorem not_mem_leaveQueue (c : Claimant) (s : State) : c ∉ (leaveQueue c s).power.queue :=
  fun h => ((mem_leaveQueue c c s).mp h).2 rfl

theorem joinQueue_only (c : Claimant) (s : State) : Only c s (joinQueue c s) :=
  have h := joinQueue_frame c s
  ⟨h.clock, h.store, joinQueue_nodup, fun d hd => (mem_joinQueue c d s).trans (or_iff_right hd),
    fun _ _ => joinQueue_pump .., fun _ _ => joinQueue_screen ..⟩

theorem leaveQueue_only (c : Claimant) (s : State) : Only c s (leaveQueue c s) :=
  ⟨rfl, rfl, nodup_filter _, fun d hd => (mem_leaveQueue c d s).trans (and_iff_left hd), fun _ _ => rfl,
    fun _ _ => rfl⟩

theorem setMark_only (c : Claimant) (v : Bool) (s : State) : Only c s (setMark c v s) := by
  cases c
  · exact only_onPump ..
  · exact only_onScreen ..

theorem waitNoMore_only (c : Claimant) (s : State) : Only c s (waitNoMore c s) :=
  (leaveQueue_only c s).trans (setMark_only ..)

theorem quitQueue_only (c : Claimant) (s : State) : Only c s (quitQueue c s) :=
  (waitNoMore_only c s).trans ((offerEdges_frame ..).only c)

theorem clearShed_only (c : Claimant) (s : State) : Only c s (clearShed c s) :=
  (setMark_only ..).trans ((offerEdges_frame ..).only c)

theorem markShed_only (c : Claimant) (short : Nat) (s : State) : Only c s (markShed c short s) := by
  unfold markShed
  dsimp only
  split
  · exact setMark_only ..
  · exact (setMark_only ..).trans ((raiseKind_frame ..).only c)

theorem setMark_queue (c : Claimant) (v : Bool) (s : State) : (setMark c v s).power.queue = s.power.queue := by
  cases c <;> rfl

theorem not_mem_waitNoMore (c : Claimant) (s : State) : c ∉ (waitNoMore c s).power.queue := by
  unfold waitNoMore
  rw [setMark_queue]
  exact not_mem_leaveQueue c s

theorem waitNoMore_pump (p : Ix6) (s : State) :
    (waitNoMore (.pump p) s).pump p = { s.pump p with shedMark := false } := by
  show ((leaveQueue (.pump p) s).onPump p _).pump p = _
  rw [State.onPump_pump, if_pos rfl]
  rfl

theorem waitNoMore_screen (n : Ix2) (s : State) :
    (waitNoMore (.rake n) s).screen n = { s.screen n with shedMark := false } := by
  show ((leaveQueue (.rake n) s).onScreen n _).screen n = _
  rw [State.onScreen_screen, if_pos rfl]
  rfl

/-! Claimants across edges -/

theorem EdgeFrame.fits {s t : State} (h : EdgeFrame s t) (c : Claimant) : Fits t c ↔ Fits s c := by
  cases c with
  | pump p =>
    show PumpFits _ (t.pump p) ↔ PumpFits _ (s.pump p)
    rw [h.power, h.pump]
  | rake n =>
    show RakeFits _ (t.screen n) ↔ RakeFits _ (s.screen n)
    rw [h.power, h.screen]

theorem fits_onPump {p : Ix6} {f : Pump → Pump} {s : State}
    (h : PumpFits (.pump p ∈ s.power.queue) (f (s.pump p))) : Fits (s.onPump p f) (.pump p) := by
  show PumpFits _ ((s.onPump p f).pump p)
  rw [State.onPump_pump, if_pos rfl]
  exact h

theorem fits_onScreen {n : Ix2} {f : Screen → Screen} {s : State}
    (h : RakeFits (.rake n ∈ s.power.queue) (f (s.screen n))) : Fits (s.onScreen n f) (.rake n) := by
  show RakeFits _ ((s.onScreen n f).screen n)
  rw [State.onScreen_screen, if_pos rfl]
  exact h

theorem screen_onScreen (n : Ix2) (f : Screen → Screen) (s : State) : (s.onScreen n f).screen n = f (s.screen n) := by
  rw [State.onScreen_screen, if_pos rfl]

theorem pump_onPump (p : Ix6) (f : Pump → Pump) (s : State) : (s.onPump p f).pump p = f (s.pump p) := by
  rw [State.onPump_pump, if_pos rfl]

/-- A rake's mark or motors stand; its place, claim and operation are kept. -/
theorem RakeFits.marked {w : Prop} {a : Screen} (h : RakeFits w a) (v : Bool) : RakeFits w { a with shedMark := v } :=
  ⟨h.queued, h.claims, h.operation, h.saved, h.motors⟩

/-! Pumps -/

theorem stopPump_only (r : StopReason) (p : Ix6) (s : State) : Only (.pump p) s (stopPump r p s) := by
  unfold stopPump
  dsimp only
  split
  · exact (only_onPump p _ s).trans (only_of_same _ rfl rfl rfl rfl rfl)
  · exact only_onPump p _ s

theorem stopPump_queue (r : StopReason) (p : Ix6) (s : State) : (stopPump r p s).power.queue = s.power.queue := by
  unfold stopPump
  dsimp only
  split <;> rfl

theorem stopPump_fits (r : StopReason) {p : Ix6} {s : State} (h : .pump p ∉ s.power.queue) :
    Fits (stopPump r p s) (.pump p) := by
  show PumpFits _ ((stopPump r p s).pump p)
  rw [stopPump_queue, stopPump_pump, if_pos rfl]
  exact .at_rest h rfl rfl

theorem enterRunOn_only (r : Route) (p : Ix6) (s : State) : Only (.pump p) s (enterRunOn r p s) :=
  (only_onPump p _ s).trans ((offerEdges_frame ..).only _)

theorem enterRunOn_fits (r : Route) {p : Ix6} {s : State} (h : .pump p ∉ s.power.queue) (hc : (s.pump p).claim = none) :
    Fits (enterRunOn r p s) (.pump p) :=
  ((offerEdges_frame ..).fits _).mpr (fits_onPump (.at_rest h rfl hc))

/-! Rakes -/

theorem writeCompletion_only (n : Ix2) (o : Nat) (r : RakeOutcome) (c : Nat) (s : State) :
    Only (.rake n) s (writeCompletion n o r c s) := (only_onScreen n _ s).trans ((setFlag_frame ..).only _)

theorem writeCompletion_queue (n : Ix2) (o : Nat) (r : RakeOutcome) (c : Nat) (s : State) :
    (writeCompletion n o r c s).power.queue = s.power.queue := congrArg Power.queue (setFlag_frame ..).power

theorem writeCompletion_screen (n : Ix2) (o : Nat) (r : RakeOutcome) (c : Nat) (s : State) :
    (writeCompletion n o r c s).screen n =
      { s.screen n with
        completion := some ⟨(s.screen n).completion.isSome, o, r, (s.screen n).position, c, s.clock.station⟩ } := by
  unfold writeCompletion
  rw [(setFlag_frame ..).screen, screen_onScreen]

theorem rest_fits {n : Ix2} {st : RakeState} {s : State} (h : .rake n ∉ s.power.queue) (hr : st.resting = true) :
    Fits (s.onScreen n (Screen.rest st)) (.rake n) := fits_onScreen (.at_rest h hr rfl rfl rfl rfl)

theorem enterIdle_only (n : Ix2) (s : State) : Only (.rake n) s (enterIdle n s) := only_onScreen ..

theorem enterIdle_fits {n : Ix2} {s : State} (h : .rake n ∉ s.power.queue) : Fits (enterIdle n s) (.rake n) :=
  fits_onScreen (.at_rest h rfl rfl rfl rfl rfl)

theorem enterHeld_only (n : Ix2) (s : State) : Only (.rake n) s (enterHeld n s) :=
  (only_onScreen n _ s).trans ((raiseKind_frame ..).only _)

theorem enterHeld_fits {n : Ix2} {s : State} (h : .rake n ∉ s.power.queue) : Fits (enterHeld n s) (.rake n) :=
  ((raiseKind_frame ..).fits _).mpr (rest_fits h rfl)

theorem finishPosition_only (n : Ix2) (s : State) : Only (.rake n) s (finishPosition n s) :=
  (writeCompletion_only ..).trans (enterHeld_only ..)

theorem finishPosition_fits {n : Ix2} {s : State} (h : .rake n ∉ s.power.queue) :
    Fits (finishPosition n s) (.rake n) := enterHeld_fits (by rw [writeCompletion_queue]; exact h)

theorem finishHoming_only (n : Ix2) (s : State) : Only (.rake n) s (finishHoming n s) :=
  (only_onScreen n _ s).trans ((writeCompletion_only ..).trans (enterIdle_only ..))

theorem finishHoming_fits {n : Ix2} {s : State} (h : .rake n ∉ s.power.queue) : Fits (finishHoming n s) (.rake n) :=
  enterIdle_fits (by rw [writeCompletion_queue]; exact h)

theorem beginOp_only (n : Ix2) (op : Operation) (s : State) : Only (.rake n) s (beginOp n op s) :=
  (only_onScreen n _ s).trans (joinQueue_only ..)

/-- A rake with no claim and no jam timer waits for the operation it begins. -/
theorem beginOp_fits {n : Ix2} {op : Operation} {s : State} (ho : op ≠ .none) (hc : (s.screen n).claim = none)
    (hj : (s.screen n).jamTimer = none) : Fits (beginOp n op s) (.rake n) := by
  show RakeFits _ ((beginOp n op s).screen n)
  unfold beginOp
  rw [joinQueue_screen, screen_onScreen, propext (mem_joinQueue ..)]
  exact ⟨iff_of_true (.inl rfl) (.inl rfl), fun h => absurd hc h, fun _ => ho, fun h => RakeState.noConfusion h,
    fun h => absurd h (Screen.motionless rfl rfl hj)⟩

theorem energise_only (n : Ix2) (st : RakeState) (d : Dir) (s : State) : Only (.rake n) s (energise n st d s) :=
  only_onScreen ..

theorem energise_fits {n : Ix2} {st : RakeState} (d : Dir) {s : State} (h : .rake n ∉ s.power.queue)
    (hst : st.driven = true) (ho : (s.screen n).op ≠ .none) : Fits (energise n st d s) (.rake n) :=
  fits_onScreen (.in_stage h (RakeState.claimed_of_driven hst) ho fun _ => hst)

theorem checkLimit_only (n : Ix2) (s : State) : Only (.rake n) s (checkLimit n s) := by
  unfold checkLimit
  dsimp only
  split
  · split
    · exact only_onScreen ..
    · exact .refl ..
  · split
    · exact only_onScreen ..
    · exact .refl ..
  · split
    · exact finishHoming_only ..
    · exact .refl ..
  · split
    · exact (only_onScreen ..).trans (finishPosition_only ..)
    · split
      · exact finishPosition_only ..
      · exact .refl ..
  · exact .refl ..

theorem dwell_fits {w : Prop} {a : Screen} (h : RakeFits w a) (hr : a.rake.claimed = true) {b : Screen}
    (hb : b.rake.claimed = true) (ho : b.op = a.op) (hu : b.up = false) (hd : b.down = false) (hj : b.jamTimer = none) :
    RakeFits w b := by
  obtain ⟨hw, hop⟩ := h.stage hr
  exact .in_stage hw hb (ho ▸ hop) fun h => absurd h (Screen.motionless hu hd hj)

/-- A stage whose own limit is made leaves its rake in the next one, or at rest (R100). -/
theorem checkLimit_fits {n : Ix2} {s : State} (h : Fits s (.rake n)) : Fits (checkLimit n s) (.rake n) := by
  have hf : RakeFits (.rake n ∈ s.power.queue) (s.screen n) := h
  have hout : (s.screen n).rake.claimed = true → .rake n ∉ s.power.queue := fun e => (hf.stage e).1
  unfold checkLimit
  dsimp only
  split
  · next hr =>
    have hc : (s.screen n).rake.claimed = true := by rw [hr]; rfl
    split
    · exact fits_onScreen (dwell_fits hf hc rfl rfl rfl rfl rfl)
    · exact h
  · next hr =>
    have hc : (s.screen n).rake.claimed = true := by rw [hr]; rfl
    split
    · exact fits_onScreen (dwell_fits hf hc rfl rfl rfl rfl rfl)
    · exact h
  · next hr =>
    split
    · exact finishHoming_fits (hout (by rw [hr]; rfl))
    · exact h
  · next hr =>
    have hq := hout (by rw [hr]; rfl)
    split
    · exact finishPosition_fits hq
    · split
      · exact finishPosition_fits hq
      · exact h
  · exact h

theorem beginLeg_only (n : Ix2) (st : RakeState) (d : Dir) (s : State) : Only (.rake n) s (beginLeg n st d s) :=
  (only_onScreen ..).trans ((energise_only ..).trans (checkLimit_only ..))

theorem beginLeg_fits {n : Ix2} {st : RakeState} (d : Dir) {s : State} (h : .rake n ∉ s.power.queue)
    (hst : st.driven = true) (ho : (s.screen n).op ≠ .none) : Fits (beginLeg n st d s) (.rake n) :=
  checkLimit_fits (energise_fits d h hst (by unfold startLeg; rw [screen_onScreen]; exact ho))

theorem firstStage_only (n : Ix2) (s : State) : Only (.rake n) s (firstStage n s) := by
  unfold firstStage
  split
  · exact (only_onScreen ..).trans (beginLeg_only ..)
  · exact (only_onScreen ..).trans (beginLeg_only ..)
  · exact beginLeg_only ..
  · split
    · exact finishPosition_only ..
    · split
      · exact beginLeg_only ..
      · exact beginLeg_only ..
  · exact .refl ..

theorem firstStage_fits {n : Ix2} {s : State} (h : .rake n ∉ s.power.queue) (ho : (s.screen n).op ≠ .none) :
    Fits (firstStage n s) (.rake n) := by
  unfold firstStage
  split
  · exact beginLeg_fits _ h rfl (by rw [screen_onScreen]; exact ho)
  · exact beginLeg_fits _ h rfl (by rw [screen_onScreen]; exact ho)
  · exact beginLeg_fits _ h rfl ho
  · split
    · exact finishPosition_fits h
    · split
      · exact beginLeg_fits _ h rfl ho
      · exact beginLeg_fits _ h rfl ho
  · next hop => exact absurd hop ho

theorem interruptedStage_driven (op : Operation) (d : Dir) : (interruptedStage op d).driven = true := by
  cases op <;> cases d <;> rfl

theorem endReverse_only (n : Ix2) (s : State) : Only (.rake n) s (endReverse n s) :=
  (only_onScreen ..).trans (energise_only ..)

theorem endReverse_fits {n : Ix2} {s : State} (h : .rake n ∉ s.power.queue) (ho : (s.screen n).op ≠ .none) :
    Fits (endReverse n s) (.rake n) :=
  energise_fits _ h (interruptedStage_driven ..) (by rw [screen_onScreen]; exact ho)

theorem enterReversing_only (n : Ix2) (s : State) : Only (.rake n) s (enterReversing n s) :=
  (only_onScreen ..).trans (energise_only ..)

theorem enterReversing_fits {n : Ix2} {s : State} (h : .rake n ∉ s.power.queue) (ho : (s.screen n).op ≠ .none) :
    Fits (enterReversing n s) (.rake n) := energise_fits _ h rfl (by rw [screen_onScreen]; exact ho)

theorem enterReversing_op (n : Ix2) (s : State) : ((enterReversing n s).screen n).op = (s.screen n).op := by
  unfold enterReversing energise
  rw [screen_onScreen, screen_onScreen]
  rfl

theorem limitInReverse_only (n : Ix2) (b : Bool) (s : State) : Only (.rake n) s (limitInReverse n b s) := by
  unfold limitInReverse
  split
  · exact (only_onScreen ..).trans (endReverse_only ..)
  · exact endReverse_only ..

theorem limitInReverse_fits {n : Ix2} (b : Bool) {s : State} (h : .rake n ∉ s.power.queue)
    (ho : (s.screen n).op ≠ .none) : Fits (limitInReverse n b s) (.rake n) := by
  unfold limitInReverse
  split
  · exact endReverse_fits h (by rw [screen_onScreen]; exact ho)
  · exact endReverse_fits h ho

theorem resumeStage_only (n : Ix2) (st : RakeState) (s : State) : Only (.rake n) s (resumeStage n st s) := by
  cases st
  case gripping | discharging => exact only_onScreen ..
  case descending | ascending | homing | positioning => exact (energise_only ..).trans (checkLimit_only ..)
  case reversing =>
    unfold resumeStage
    dsimp only
    split
    · exact (enterReversing_only ..).trans (limitInReverse_only ..)
    · split
      · exact (enterReversing_only ..).trans (limitInReverse_only ..)
      · exact enterReversing_only ..
  all_goals exact .refl ..

/-- A PAUSED rake resumes the stage it saved. -/
theorem resumeStage_fits {n : Ix2} {st : RakeState} {s : State} (h : .rake n ∉ s.power.queue)
    (hst : st.claimed = true) (ho : (s.screen n).op ≠ .none)
    (hm : (s.screen n).up = false ∧ (s.screen n).down = false ∧ (s.screen n).jamTimer = none) :
    Fits (resumeStage n st s) (.rake n) := by
  obtain ⟨hu, hd, hj⟩ := hm
  cases st
  case gripping | discharging => exact fits_onScreen (.in_stage h rfl ho fun e => absurd e (Screen.motionless hu hd hj))
  case descending | ascending | homing | positioning => exact checkLimit_fits (energise_fits _ h rfl ho)
  case reversing =>
    have hop : ((enterReversing n s).screen n).op ≠ .none := by rw [enterReversing_op]; exact ho
    have hq : .rake n ∉ (enterReversing n s).power.queue := h
    unfold resumeStage
    dsimp only
    split
    · exact limitInReverse_fits true hq hop
    · split
      · exact limitInReverse_fits false hq hop
      · exact enterReversing_fits h ho
  all_goals cases hst

theorem pauseRake_only (n : Ix2) (s : State) : Only (.rake n) s (pauseRake n s) :=
  (only_onScreen ..).trans (joinQueue_only ..)

/-- A shed rake waits with its stage saved (R110). -/
theorem pauseRake_fits {n : Ix2} {s : State} (hst : (s.screen n).rake.claimed = true) (ho : (s.screen n).op ≠ .none) :
    Fits (pauseRake n s) (.rake n) := by
  show RakeFits _ ((pauseRake n s).screen n)
  unfold pauseRake
  rw [joinQueue_screen, screen_onScreen, propext (mem_joinQueue ..)]
  exact ⟨iff_of_true (.inl rfl) (.inr rfl), fun h => absurd rfl h, fun _ => ho, fun _ => ⟨_, rfl, hst⟩,
    fun h => absurd h (Screen.motionless rfl rfl rfl)⟩

theorem enterLocked_only (n : Ix2) (o : RakeOutcome) (s : State) : Only (.rake n) s (enterLocked n o s) := by
  unfold enterLocked
  dsimp only
  split
  · exact (waitNoMore_only ..).trans ((writeCompletion_only ..).trans (only_onScreen ..))
  · exact (writeCompletion_only ..).trans (only_onScreen ..)

theorem screen_queued_iff (a : Screen) : a.queued = true ↔ a.rake = .waiting ∨ a.rake = .paused := by
  simp [Screen.queued]

/-- A rake that locks leaves the queue (R113). -/
theorem enterLocked_fits {n : Ix2} (o : RakeOutcome) {s : State} (h : Fits s (.rake n)) :
    Fits (enterLocked n o s) (.rake n) := by
  have hf : RakeFits (.rake n ∈ s.power.queue) (s.screen n) := h
  unfold enterLocked
  dsimp only
  split
  · exact rest_fits (by rw [writeCompletion_queue]; exact not_mem_waitNoMore _ s) rfl
  · next hq =>
    refine rest_fits ?_ rfl
    rw [writeCompletion_queue]
    exact hf.unqueued fun e => hq ((screen_queued_iff _).mpr e)

end Sys2Proof.Machine
end


section
/-!
SUPPORT. What every operation of the plant carries: uptime and the store image as they stand (R196, R197), and the promise
of the claim queue (R85).
-/

namespace Sys2Proof.Machine

/-- Uptime, the store image and its checksum stand, and the claim queue's promise passes on. -/
structure Orderly (s t : State) : Prop where
  uptime : t.clock.uptime = s.clock.uptime
  image : t.store.image = s.store.image
  checksum : t.store.checksumGood = s.store.checksumGood
  queue : QueueOk s → QueueOk t

theorem Orderly.refl (s : State) : Orderly s s := ⟨rfl, rfl, rfl, id⟩

theorem Orderly.trans {s t u : State} (h : Orderly s t) (k : Orderly t u) : Orderly s u :=
  ⟨k.uptime.trans h.uptime, k.image.trans h.image, k.checksum.trans h.checksum, fun x => k.queue (h.queue x)⟩

theorem orderly_foldl {α : Type} (f : State → α → State) (hf : ∀ s a, Orderly s (f s a)) (l : List α) (s : State) :
    Orderly s (l.foldl f s) := foldl_frame Orderly .refl .trans f hf l s

theorem Only.orderly {c : Claimant} {s t : State} (h : Only c s t) (hc : QueueOk s → Fits t c) : Orderly s t :=
  ⟨congrArg Clock.uptime h.clock, congrArg Store.image h.store, congrArg Store.checksumGood h.store,
    fun hs => h.queueOk hs (hc hs)⟩

/-- The queue's promise speaks of the queue, the pumps and the screens alone. -/
theorem queueOk_congr {s t : State} (hq : t.power.queue = s.power.queue) (hp : t.pumps = s.pumps)
    (hn : t.screens = s.screens) : QueueOk s → QueueOk t
  | ⟨a, b, c, d, e, f, g, i, j⟩ => by
    have hpump : ∀ p, t.pump p = s.pump p := fun p => congrArg (Six.get · p) hp
    have hscreen : ∀ n, t.screen n = s.screen n := fun n => congrArg (Two.get · n) hn
    constructor <;> simp only [hq, hpump, hscreen] <;> assumption

/-- Nothing that `Orderly` speaks of moves. -/
theorem orderly_same {s t : State} (hk : t.clock.uptime = s.clock.uptime) (hi : t.store.image = s.store.image)
    (hg : t.store.checksumGood = s.store.checksumGood) (hq : t.power.queue = s.power.queue) (hp : t.pumps = s.pumps)
    (hn : t.screens = s.screens) : Orderly s t :=
  ⟨hk, hi, hg, queueOk_congr hq hp hn⟩

theorem EdgeFrame.orderly {s t : State} (h : EdgeFrame s t) : Orderly s t :=
  orderly_same (congrArg Clock.uptime h.clock) (congrArg Store.image h.store) (congrArg Store.checksumGood h.store)
    (congrArg Power.queue h.power) h.pumps h.screens

theorem SendFrame.orderly {s t : State} (h : SendFrame s t) : Orderly s t :=
  orderly_same (congrArg Clock.uptime h.clock) (congrArg Store.image h.store) (congrArg Store.checksumGood h.store)
    (congrArg Power.queue h.power) h.pumps h.screens

/-! Updates of one block -/

theorem orderlyClock (f : Clock → Clock) (s : State) (h : (f s.clock).uptime = s.clock.uptime) :
    Orderly s (s.onClock f) := orderly_same h rfl rfl rfl rfl rfl
theorem orderlyLevel (f : Level → Level) (s : State) : Orderly s (s.onLevel f) := orderly_same rfl rfl rfl rfl rfl rfl
theorem orderlyBalance (f : Balance → Balance) (s : State) : Orderly s (s.onBalance f) :=
  orderly_same rfl rfl rfl rfl rfl rfl
theorem orderlyDuty (f : Duty → Duty) (s : State) : Orderly s (s.onDuty f) := orderly_same rfl rfl rfl rfl rfl rfl
theorem orderlyAnn (f : Annunciator → Annunciator) (s : State) : Orderly s (s.onAnn f) :=
  orderly_same rfl rfl rfl rfl rfl rfl
theorem orderlyPort (f : Port → Port) (s : State) : Orderly s (s.onPort f) := orderly_same rfl rfl rfl rfl rfl rfl
theorem orderlyLink (f : Link → Link) (s : State) : Orderly s (s.onLink f) := orderly_same rfl rfl rfl rfl rfl rfl
theorem orderlyTable (f : Table → Table) (s : State) : Orderly s (s.onTable f) := orderly_same rfl rfl rfl rfl rfl rfl

theorem orderlyPower (f : Power → Power) (s : State) (h : (f s.power).queue = s.power.queue) :
    Orderly s (s.onPower f) := orderly_same rfl rfl rfl h rfl rfl

theorem orderlyStore (f : Store → Store) (s : State) (hi : (f s.store).image = s.store.image)
    (hg : (f s.store).checksumGood = s.store.checksumGood) : Orderly s (s.onStore f) :=
  orderly_same rfl hi hg rfl rfl rfl

/-- A change of one pump that its promise does not speak of. -/
theorem orderlyPump (p : Ix6) (f : Pump → Pump) (s : State)
    (h : ∀ w q, PumpFits w q → PumpFits w (f q) := by exact fun _ _ h => ⟨h.queued, h.auto, h.claims⟩) :
    Orderly s (s.onPump p f) := (only_onPump p f s).orderly fun hs => fits_onPump (h _ _ (hs.pumpFits p))

/-- A change of one screen that its rake's promise does not speak of. -/
theorem orderlyScreen (n : Ix2) (f : Screen → Screen) (s : State)
    (h : ∀ w a, RakeFits w a → RakeFits w (f a) := by
      exact fun _ _ h => ⟨h.queued, h.claims, h.operation, h.saved, h.motors⟩) :
    Orderly s (s.onScreen n f) := (only_onScreen n f s).orderly fun hs => fits_onScreen (h _ _ (hs.rakeFits n))

/-- A change of every pump that their promises do not speak of. -/
theorem orderlyPumps (v : Six Pump) (s : State) (h : ∀ w p, PumpFits w (s.pump p) → PumpFits w (v.get p)) :
    Orderly s { s with pumps := v } :=
  ⟨rfl, rfl, rfl, fun hs => (queueOk_iff _).mpr ⟨hs.once, fun c => by
    cases c with
    | pump p => exact h _ p (hs.pumpFits p)
    | rake n => exact hs.rakeFits n⟩⟩

/-! Pumps -/

theorem reviewStarts_orderly (p : Ix6) (s : State) : Orderly s (reviewStarts p s) :=
  (orderlyPump p _ s).trans (offerEdges_frame ..).orderly

/-- A pump that does not wait stops. -/
theorem stopPump_orderly (r : StopReason) {p : Ix6} {s : State} (h : QueueOk s → (s.pump p).seq ≠ .queued) :
    Orderly s (stopPump r p s) :=
  (stopPump_only r p s).orderly fun hs => stopPump_fits r ((hs.pumpFits p).unqueued (h hs))

theorem trimAllHistories_orderly (s : State) : Orderly s (trimAllHistories s) :=
  orderlyPumps _ s fun _ _ h => by rw [Six.get_gen]; exact ⟨h.queued, h.auto, h.claims⟩

theorem headPeriodEnd_orderly (s : State) : Orderly s (headPeriodEnd s) := by
  refine orderlyPumps _ s fun _ p h => ?_
  have htime : ∀ d, ((s.pump p).timeHead d).seq = (s.pump p).seq ∧ ((s.pump p).timeHead d).selector = (s.pump p).selector ∧
      ((s.pump p).timeHead d).claim = (s.pump p).claim := by
    intro d
    unfold Pump.timeHead
    split
    · split <;> exact ⟨rfl, rfl, rfl⟩
    · exact ⟨rfl, rfl, rfl⟩
  rw [Six.get_gen]
  obtain ⟨hseq, hsel, hcl⟩ := htime (s.running.headBlockedDelay p)
  exact ⟨hseq ▸ h.queued, hseq ▸ hsel ▸ h.auto, hcl ▸ hseq ▸ h.claims⟩

theorem stageFlow_orderly (s : State) : Orderly s (stageFlow s) :=
  orderlyPumps _ s fun _ _ h => by rw [Six.get_gen]; exact ⟨h.queued, h.auto, h.claims⟩

theorem clearTownMarks_orderly (s : State) : Orderly s (clearTownMarks s) :=
  orderlyPumps _ s fun _ _ h => by rw [Six.get_map]; exact ⟨h.queued, h.auto, h.claims⟩

theorem formCalled_orderly (s : State) : Orderly s (formCalled s) :=
  orderlyPumps _ s fun _ _ h => by rw [Six.get_gen]; exact ⟨h.queued, h.auto, h.claims⟩

/-- A pump that leaves the queue in a state of rest, holding no claim. -/
theorem waitNoMore_pump_fits {p : Ix6} {s : State} (hs : (s.pump p).seq.seeks = false) (hc : (s.pump p).claim = none) :
    Fits (waitNoMore (.pump p) s) (.pump p) := by
  show PumpFits _ ((waitNoMore (.pump p) s).pump p)
  rw [waitNoMore_pump]
  exact .at_rest (not_mem_waitNoMore _ s) hs hc

/-- Locks and marks of a pump stand apart from its place and its claim. -/
theorem lockPump_orderly' (p : Ix6) (f : PumpLocks → PumpLocks) (g : PumpAcks → PumpAcks) (s : State) :
    Orderly s (s.onPump p fun q => { q with locks := f q.locks, acks := g q.acks }) :=
  orderlyPump p _ s

theorem addReason_orderly (p : Ix6) (r : PumpReason) (es : List Edge) (s : State) : Orderly s (addReason p r es s) := by
  have hlock : Orderly s (s.onPump p fun q => { q with locks := q.locks.put r true, acks := q.acks.put r false }) :=
    lockPump_orderly' p (·.put r true) (·.put r false) s
  have hseq : ((s.onPump p fun q => { q with locks := q.locks.put r true, acks := q.acks.put r false }).pump p).seq =
      (s.pump p).seq := by rw [pump_onPump]
  unfold addReason
  dsimp only
  split
  · next hq =>
    have honly := ((only_onPump p (fun q => { q with locks := q.locks.put r true, acks := q.acks.put r false }) s).trans
      (only_onPump p (fun q => { q with seq := .idle }) _)).trans
        (waitNoMore_only ..)
    refine Orderly.trans (honly.orderly fun hs => waitNoMore_pump_fits ?_ ?_) (offerEdges_frame ..).orderly
    · rw [pump_onPump]; rfl
    · rw [pump_onPump, pump_onPump]
      exact (hs.pumpFits p).unclaimed (by rw [hq]; decide) (by rw [hq]; decide)
  · next hq =>
    exact (hlock.trans (stopPump_orderly .lockout fun _ => by rw [hseq, hq]; decide)).trans (offerEdges_frame ..).orderly
  · next hq =>
    exact (hlock.trans (stopPump_orderly .lockout fun _ => by rw [hseq, hq]; decide)).trans (offerEdges_frame ..).orderly
  · exact hlock.trans (offerEdges_frame ..).orderly

theorem lockPump_orderly (p : Ix6) (r : PumpReason) (x : List Byte) (s : State) : Orderly s (lockPump p r x s) :=
  addReason_orderly ..

theorem releaseReasons_orderly (p : Ix6) (s : State) : Orderly s (releaseReasons p s) :=
  (orderlyPump p _ s).trans (offerEdges_frame ..).orderly

theorem pumpNotice_orderly (p : Ix6) (r : PumpReason) (s : State) : Orderly s (pumpNotice p r s) := by
  unfold pumpNotice
  split
  · exact (orderlyPump p _ s).trans (releaseReasons_orderly ..)
  · exact .refl s

/-- A pump at rest enters RUN-ON. -/
theorem enterRunOn_orderly (r : Route) {p : Ix6} {s : State} (h : (s.pump p).seq.seeks = false) :
    Orderly s (enterRunOn r p s) := by
  simp only [Seq.seeks, Bool.or_eq_false_iff, decide_eq_false_iff_not] at h
  obtain ⟨⟨hq, hst⟩, hr⟩ := h
  exact (enterRunOn_only r p s).orderly fun hs =>
    enterRunOn_fits r ((hs.pumpFits p).unqueued hq) ((hs.pumpFits p).unclaimed hst hr)

theorem leaveRunOn_orderly {p : Ix6} {s : State} (h : (s.pump p).seq = .runOn) : Orderly s (leaveRunOn p s) := by
  refine Orderly.trans ((only_onPump p _ s).orderly fun hs => fits_onPump ?_) (returnKind_frame ..).orderly
  exact .at_rest ((hs.pumpFits p).unqueued (by rw [h]; decide)) rfl
    ((hs.pumpFits p).unclaimed (by rw [h]; decide) (by rw [h]; decide))

theorem feedbackPresent_orderly (p : Ix6) (s : State) : Orderly s (feedbackPresent p s) := by
  unfold feedbackPresent
  split
  · next hq =>
    refine (only_onPump p _ s).orderly fun hs => fits_onPump ?_
    have hf := hs.pumpFits p
    exact ⟨iff_of_false (hf.unqueued (by rw [hq]; decide)) Seq.noConfusion, fun _ => hf.auto (.inr (.inl hq)),
      fun _ => .inr rfl⟩
  · next hq => exact enterRunOn_orderly .idle (by rw [hq]; rfl)
  · next hq =>
    refine ((leaveQueue_only ..).trans (enterRunOn_only ..)).orderly fun hs => enterRunOn_fits _ ?_ ?_
    · exact not_mem_leaveQueue _ s
    · exact (hs.pumpFits p).unclaimed (by rw [hq]; decide) (by rw [hq]; decide)
  · next hq =>
    split
    · exact enterRunOn_orderly .stopping (by rw [hq]; rfl)
    · exact .refl s
  · exact .refl s

theorem feedbackAbsent_orderly (p : Ix6) (s : State) : Orderly s (feedbackAbsent p s) := by
  unfold feedbackAbsent
  split
  · exact lockPump_orderly ..
  · next hq => exact leaveRunOn_orderly hq
  · exact .refl s

theorem pumpInputMoved_orderly (p : Ix6) (i : PumpInput) (s : State) : Orderly s (pumpInputMoved p i s) := by
  cases i
  · unfold pumpInputMoved
    dsimp only
    split
    · exact feedbackPresent_orderly ..
    · exact feedbackAbsent_orderly ..
  · unfold pumpInputMoved thermalMoved
    dsimp only
    split
    · split
      · exact .refl s
      · exact lockPump_orderly ..
    · exact releaseReasons_orderly ..
  · unfold pumpInputMoved sealMoved
    dsimp only
    split
    · exact (raiseKind_frame ..).orderly
    · exact (returnKind_frame ..).orderly

theorem startWindowExpires_orderly (p : Ix6) (s : State) : Orderly s (startWindowExpires p s) :=
  (orderlyPump p _ s).trans (lockPump_orderly ..)

/-- A STOPPING pump comes to rest. -/
theorem restPump_orderly {p : Ix6} {s : State} (h : (s.pump p).seq = .stopping) : Orderly s (restPump p s) :=
  (only_onPump p _ s).orderly fun hs => fits_onPump (.at_rest ((hs.pumpFits p).unqueued (by rw [h]; decide)) rfl
    ((hs.pumpFits p).unclaimed (by rw [h]; decide) (by rw [h]; decide)))

theorem stopWindowExpires_orderly {p : Ix6} {s : State} (h : (s.pump p).seq = .stopping) :
    Orderly s (stopWindowExpires p s) := by
  have hdone : Orderly s (s.onPump p fun q => { q with stopWindow := none, stopDone := true }) :=
    orderlyPump p _ s
  unfold stopWindowExpires
  split
  · exact enterRunOn_orderly _ (by rw [h]; rfl)
  · dsimp only
    split
    · exact hdone
    · exact hdone.trans (restPump_orderly (by rw [pump_onPump]; exact h))

theorem runDownExpires_orderly {p : Ix6} {s : State} (h : (s.pump p).seq = .stopping) :
    Orderly s (runDownExpires p s) := by
  have hdone : Orderly s (s.onPump p fun q => { q with runDown := none }) :=
    orderlyPump p _ s
  unfold runDownExpires
  dsimp only
  split
  · exact hdone.trans (restPump_orderly (by rw [pump_onPump]; exact h))
  · exact hdone

/-- The selector leaves or enters AUTO (R78). -/
theorem moveSelector_orderly {p : Ix6} {sel : Selector} {s : State} (h : sel ≠ (s.pump p).selector) :
    Orderly s (moveSelector p sel s) := by
  unfold moveSelector
  split
  · next hsel =>
    have hidle : Orderly s (s.onPump p fun q => { q with selector := sel, seq := .idle }) := by
      refine (only_onPump p _ s).orderly fun hs => fits_onPump ?_
      have hf := hs.pumpFits p
      have hseek : ¬((s.pump p).seq = .queued ∨ (s.pump p).seq = .starting ∨ (s.pump p).seq = .running) :=
        fun e => h (hsel.trans (hf.auto e).symm)
      exact .at_rest (hf.unqueued fun e => hseek (.inl e)) rfl
        (hf.unclaimed (fun e => hseek (.inr (.inl e))) fun e => hseek (.inr (.inr e)))
    dsimp only
    split
    · exact hidle.trans (enterRunOn_orderly _ (by rw [pump_onPump]; rfl))
    · exact hidle
  · have haside : (Pump.aside sel (s.pump p)).seq.seeks = false := by
      unfold Pump.aside
      dsimp only
      split <;> rfl
    refine Orderly.trans (((only_onPump p (Pump.aside sel) s).trans (waitNoMore_only ..)).orderly fun _ =>
      waitNoMore_pump_fits ?_ ?_) (offerEdges_frame ..).orderly
    · rw [pump_onPump]; exact haside
    · rw [pump_onPump]; rfl

theorem deriveSelector_orderly (p : Ix6) (s : State) : Orderly s (deriveSelector p s) := by
  unfold deriveSelector
  dsimp only
  split
  · exact .refl s
  · exact moveSelector_orderly ‹_›

theorem setInhibit_orderly (p : Ix6) (party : Party) (s : State) : Orderly s (setInhibit p party s) := by
  refine Orderly.trans (orderlyPump p _ s fun _ _ h => ?_) (addReason_orderly ..)
  cases party <;> exact ⟨h.queued, h.auto, h.claims⟩

theorem clearInhibit_orderly (p : Ix6) (party : Party) (s : State) : Orderly s (clearInhibit p party s) := by
  have hclear : Orderly s (s.onPump p fun q =>
      { q.putMark party false with locks := q.locks.put party.reason false }) := by
    refine orderlyPump p _ s fun _ _ h => ?_
    cases party <;> exact ⟨h.queued, h.auto, h.claims⟩
  unfold clearInhibit
  dsimp only
  split
  · exact hclear
  · exact hclear.trans (returnKind_frame ..).orderly

theorem headDelayExpires_orderly (p : Ix6) (s : State) : Orderly s (headDelayExpires p s) := by
  have hraise : Orderly s (raiseKind .pumpHeadBlocked p.num (bytes2 s.balance.head)
      (s.onPump p fun q => { q with headTimer := none, headBlocked := true })) :=
    (orderlyPump p _ s).trans (raiseKind_frame ..).orderly
  unfold headDelayExpires
  dsimp only
  split
  · next hr =>
    exact hraise.trans (stopPump_orderly .headBlocked fun _ => (by
      rw [(raiseKind_frame ..).pump, pump_onPump, show (s.pump p).seq = _ from hr]; decide))
  · exact hraise

/-! The power -/

theorem deriveSource_orderly (s : State) : Orderly s (deriveSource s) := by
  unfold deriveSource
  dsimp only
  split
  · exact .refl s
  · exact ((orderlyPower (fun w => { w with source := s.power.derive }) s rfl).trans (setFlag_frame ..).orderly).trans
      (edges_frame _ (fun s e => offerEdge_frame e s) _ _).orderly

theorem beginTransfer_orderly (s : State) : Orderly s (beginTransfer s) :=
  (orderlyPower _ s rfl).trans (setFlag_frame ..).orderly

theorem powerLineMoved_orderly (l : PowerLine) (s : State) : Orderly s (powerLineMoved l s) := by
  have hend : Orderly s (endTransfer s) :=
    ((orderlyPower _ s rfl).trans (setFlag_frame ..).orderly).trans (deriveSource_orderly _)
  unfold powerLineMoved
  split
  · split
    · split
      · exact .refl s
      · exact beginTransfer_orderly s
    · split
      · exact hend
      · exact .refl s
  all_goals
    split
    · exact .refl s
    · exact deriveSource_orderly s

theorem testAck_orderly (s : State) : Orderly s (testAck s) := by
  unfold testAck
  split
  · exact (orderlyPower _ s rfl).trans (setFlag_frame ..).orderly
  · exact .refl s

/-! Rakes -/

theorem writeCompletion_orderly (n : Ix2) (o : Nat) (r : RakeOutcome) (c : Nat) (s : State) :
    Orderly s (writeCompletion n o r c s) :=
  (orderlyScreen n _ s).trans
    (setFlag_frame ..).orderly

/-- A rake at rest begins an operation. -/
theorem beginOp_orderly {n : Ix2} {op : Operation} {s : State} (ho : op ≠ .none)
    (hr : (s.screen n).rake.resting = true) : Orderly s (beginOp n op s) := by
  refine (beginOp_only n op s).orderly fun hs => ?_
  have hf := hs.rakeFits n
  have hcl := (RakeState.of_resting hr).2
  have hdr : (s.screen n).rake.driven = false := by
    cases h : (s.screen n).rake.driven
    · rfl
    · rw [RakeState.claimed_of_driven h] at hcl; cases hcl
  exact beginOp_fits ho (hf.unclaimed hcl) (hf.still hdr).2.2

theorem testIdle_orderly (n : Ix2) (s : State) : Orderly s (testIdle n s) := by
  have htest : Orderly s (s.onScreen n fun sc => { sc with untested := false }) :=
    orderlyScreen n _ s
  unfold testIdle
  dsimp only
  split
  · next h =>
    simp only [Bool.and_eq_true, decide_eq_true_eq] at h
    exact htest.trans (beginOp_orderly Operation.noConfusion (by rw [screen_onScreen]; exact congrArg RakeState.resting h.1))
  · exact htest

/-- A claimant in a stage is shed or locked from outside the queue. -/
theorem stage_of {n : Ix2} {s : State} (hs : QueueOk s) (hr : (s.screen n).rake.claimed = true) :
    .rake n ∉ s.power.queue ∧ (s.screen n).op ≠ .none := (hs.rakeFits n).stage hr

theorem lockRake_orderly (n : Ix2) (r : RakeReason) (x : List Byte) (s : State) : Orderly s (lockRake n r x s) := by
  have hlock : Orderly s (s.onScreen n fun sc => { sc with locks := sc.locks.put r true, acks := sc.acks.put r false }) :=
    orderlyScreen n _ s
  unfold lockRake
  dsimp only
  generalize (s.onScreen n fun sc => { sc with locks := sc.locks.put r true, acks := sc.acks.put r false }) = s1 at *
  split
  · exact hlock.trans (offerEdges_frame ..).orderly
  · exact (hlock.trans ((enterLocked_only n r.outcome s1).orderly fun hs =>
      enterLocked_fits _ (hs.rakeFits n))).trans (offerEdges_frame ..).orderly

theorem releaseRake_orderly (n : Ix2) (s : State) : Orderly s (releaseRake n s) := by
  unfold releaseRake
  dsimp only
  generalize hs1 : offerEdges _ (s.onScreen n _) = s1
  have hfree : Orderly s s1 := hs1 ▸
    (orderlyScreen n _ s).trans
      (offerEdges_frame ..).orderly
  split
  · next h =>
    simp only [Bool.and_eq_true, decide_eq_true_eq] at h
    obtain ⟨-, hr⟩ := h
    have hunhomed : Orderly s1 (s1.onScreen n fun sc => { sc with rake := .unhomed, homed := false }) := by
      refine (only_onScreen n _ s1).orderly fun hs => fits_onScreen ?_
      have hf := hs.rakeFits n
      obtain ⟨hu, hd, hj⟩ := hf.still (by rw [hr]; rfl)
      exact .at_rest (hf.unqueued (by rw [hr]; decide)) rfl (hf.unclaimed (by rw [hr]; rfl)) hu hd hj
    exact (hfree.trans hunhomed).trans (beginOp_orderly Operation.noConfusion (by rw [screen_onScreen]; rfl))
  · exact hfree

theorem rakeNotice_orderly (n : Ix2) (r : RakeReason) (s : State) : Orderly s (rakeNotice n r s) := by
  unfold rakeNotice
  split
  · exact (orderlyScreen n _ s).trans
      (releaseRake_orderly ..)
  · exact .refl s

/-- The rake carries an operation on: it takes a new one and keeps its stage. -/
theorem RakeFits.retargeted {w : Prop} {a b : Screen} (h : RakeFits w a) (ho : b.op ≠ .none) (hr : b.rake = a.rake)
    (hc : b.claim = a.claim) (hs : b.saved = a.saved) (hu : b.up = a.up) (hd : b.down = a.down)
    (hj : b.jamTimer = a.jamTimer) : RakeFits w b :=
  ⟨hr ▸ h.queued, by rw [hr, hc]; exact h.claims, fun _ => ho, by rw [hr, hs]; exact h.saved,
    by rw [hr, hu, hd, hj]; exact h.motors⟩

/-- A rake with an operation in hand, in its stage or in the queue. -/
def RakeState.busy (r : RakeState) : Prop := r = .waiting ∨ r = .paused ∨ r.claimed = true

theorem supersede_orderly {n : Ix2} {op : Operation} {s : State} (ho : op ≠ .none) : Orderly s (supersede n op s) := by
  have honly : Only (.rake n) s (supersede n op s) := by
    unfold supersede
    dsimp only
    split
    · exact (writeCompletion_only ..).trans ((only_onScreen ..).trans (only_onScreen ..))
    · exact (writeCompletion_only ..).trans ((only_onScreen ..).trans (firstStage_only ..))
  refine honly.orderly fun hs => ?_
  have hf := hs.rakeFits n
  unfold supersede
  dsimp only
  split
  · next hq =>
    simp only [Bool.or_eq_true, decide_eq_true_eq] at hq
    obtain ⟨hu, hd, -⟩ := hf.still (by obtain e | e := hq <;> rw [e] <;> rfl)
    have hcl := hf.unclaimed (by obtain e | e := hq <;> rw [e] <;> rfl)
    have hin : .rake n ∈ s.power.queue := hf.queued.mpr hq
    refine fits_onScreen ?_
    rw [screen_onScreen, writeCompletion_screen]
    rw [State.onScreen_power, writeCompletion_queue]
    exact ⟨iff_of_true hin (.inl rfl), fun h => absurd hcl h, fun _ => ho, fun h => RakeState.noConfusion h,
      fun h => absurd h (Screen.motionless hu hd rfl)⟩
  · next hq =>
    simp only [Bool.or_eq_true, decide_eq_true_eq] at hq
    refine firstStage_fits ?_ (by rw [screen_onScreen]; exact ho)
    rw [State.onScreen_power, writeCompletion_queue]
    exact hf.unqueued hq

theorem not_mem_quitQueue (c : Claimant) (s : State) : c ∉ (quitQueue c s).power.queue := by
  unfold quitQueue
  rw [(offerEdges_frame ..).power]
  exact not_mem_waitNoMore c s

theorem homeAtOnce_orderly (n : Ix2) (s : State) : Orderly s (homeAtOnce n s) :=
  ((only_onScreen ..).trans ((quitQueue_only ..).trans (finishHoming_only ..))).orderly fun _ =>
    finishHoming_fits (not_mem_quitQueue _ _)

theorem resting_of_idle {r : RakeState} (h : r = .idle) : r.resting = true := by rw [h]; rfl

theorem resting_of_held {r : RakeState} (h : r = .held) : r.resting = true := by rw [h]; rfl

theorem takeRakeCycle_orderly (n : Ix2) (s : State) : Orderly s (takeRakeCycle n s).2 := by
  unfold takeRakeCycle
  dsimp only
  split
  · exact .refl s
  split
  · exact beginOp_orderly Operation.noConfusion (resting_of_idle ‹_›)
  split
  · exact (returnKind_frame ..).orderly.trans (beginOp_orderly Operation.noConfusion (by
      rw [(returnKind_frame ..).screen]; exact resting_of_held ‹_›))
  split
  · split
    · exact .refl s
    · exact orderlyScreen n _ s
  · exact (writeCompletion_orderly ..).trans (orderlyScreen n _ _ fun _ _ h =>
      h.retargeted Operation.noConfusion rfl rfl rfl rfl rfl rfl)
  · exact supersede_orderly Operation.noConfusion

/-- The dwell, reverse and jam timers of an operation end, and its saved stage goes, before the rake homes at once. -/
theorem homeSuperseded_orderly (n : Ix2) (s : State) : Orderly s
    (homeAtOnce n (s.onScreen n fun sc => { sc with dwell := none, reverse := none, jamTimer := none, saved := none })) :=
  ((only_onScreen ..).trans ((only_onScreen ..).trans ((quitQueue_only ..).trans (finishHoming_only ..)))).orderly
    fun _ => finishHoming_fits (not_mem_quitQueue _ _)

theorem takeRakeHome_orderly (n : Ix2) (s : State) : Orderly s (takeRakeHome n s).2 := by
  unfold takeRakeHome
  dsimp only
  split
  · exact .refl s
  split
  · exact .refl s
  split
  · dsimp only
    split
    · exact (returnKind_frame ..).orderly.trans (homeAtOnce_orderly ..)
    · exact (returnKind_frame ..).orderly.trans (beginOp_orderly Operation.noConfusion (by
        rw [(returnKind_frame ..).screen]; exact resting_of_held ‹_›))
  split
  · exact .refl s
  · split
    · exact (writeCompletion_orderly ..).trans (homeSuperseded_orderly ..)
    · exact supersede_orderly Operation.noConfusion

theorem takeRakePosition_orderly (n : Ix2) (p : Nat) (s : State) : Orderly s (takeRakePosition n p s).2 := by
  unfold takeRakePosition
  dsimp only
  split
  · exact .refl s
  split
  · exact .refl s
  split
  · next hr =>
    split
    · exact ((only_onScreen ..).trans (finishPosition_only ..)).orderly fun hs =>
        finishPosition_fits ((hs.rakeFits n).unqueued (RakeState.of_resting (resting_of_idle hr)).1)
    · exact beginOp_orderly Operation.noConfusion (resting_of_idle hr)
  · exact supersede_orderly Operation.noConfusion

theorem takeRakeFinish_orderly (n : Ix2) (k : Nat) (s : State) : Orderly s (takeRakeFinish n k s).2 := by
  unfold takeRakeFinish
  dsimp only
  split
  · exact .refl s
  split
  · exact .refl s
  split
  · exact beginOp_orderly Operation.noConfusion (resting_of_idle ‹_›)
  split
  · exact orderlyScreen n _ s fun _ _ h => h.retargeted Operation.noConfusion rfl rfl rfl rfl rfl rfl
  · exact (writeCompletion_orderly ..).trans (orderlyScreen n _ _ fun _ _ h =>
      h.retargeted Operation.noConfusion rfl rfl rfl rfl rfl rfl)
  · exact supersede_orderly Operation.noConfusion

/-! Screens at a period end -/

theorem formDifferential_orderly (n : Ix2) (s : State) : Orderly s (formDifferential n s) := by
  unfold formDifferential
  cases n
  all_goals
    dsimp only
    split
    · exact orderlyScreen _ _ s
    · exact orderlyScreen _ _ s

theorem moveBlockedRake_orderly (n : Ix2) (s : State) : Orderly s (moveBlockedRake n s) := by
  unfold moveBlockedRake
  split
  · next h =>
    refine ((leaveQueue_only ..).trans (joinQueue_only ..)).orderly fun hs => ?_
    have hin : .rake n ∈ s.power.queue := by simpa using h
    show RakeFits _ ((joinQueue (.rake n) (leaveQueue (.rake n) s)).screen n)
    rw [joinQueue_screen, propext (mem_joinQueue ..)]
    have hf := hs.rakeFits n
    exact ⟨iff_of_true (.inl rfl) (hf.queued.mp hin), hf.claims, hf.operation, hf.saved, hf.motors⟩
  · exact .refl s

theorem testBlocked_orderly (n : Ix2) (s : State) : Orderly s (testBlocked n s) := by
  have hblock : Orderly s (s.onScreen n fun sc => { sc with blocked := blockedAfter s.running n (s.screen n) }) :=
    orderlyScreen n _ s
  unfold testBlocked
  dsimp only
  split
  · exact hblock.trans (moveBlockedRake_orderly ..)
  · exact hblock

theorem testTriggers_orderly (n : Ix2) (s : State) : Orderly s (testTriggers n s) := by
  unfold testTriggers
  split
  · split
    · exact beginOp_orderly Operation.noConfusion (resting_of_idle ‹_›)
    · exact orderlyScreen n _ s
  · exact .refl s

theorem formScreens_orderly (s : State) : Orderly s (formScreens s) :=
  orderly_foldl _ (fun s n => (formDifferential_orderly n s).trans (testBlocked_orderly n _)) _ s

theorem testAllTriggers_orderly (s : State) : Orderly s (testAllTriggers s) :=
  orderly_foldl _ (fun s n => testTriggers_orderly n s) _ s

/-! Rake events -/

/-- A pulse moves a rake only in a motor stage, where the jam timer runs afresh. -/
theorem afterPulse_orderly {n : Ix2} {s : State} (h : (s.screen n).up = true ∨ (s.screen n).down = true) :
    Orderly s (afterPulse n s) := by
  have hdriven : QueueOk s → (s.screen n).rake.driven = true := fun hs =>
    (hs.rakeFits n).motors (h.elim .inl fun e => .inr (.inl e))
  have hjam : Orderly s (s.onScreen n fun sc => { sc with jamTimer := seconds (s.running.jamTime n) }) := by
    refine (only_onScreen n _ s).orderly fun hs => fits_onScreen ?_
    have hf := hs.rakeFits n
    exact ⟨hf.queued, hf.claims, hf.operation, hf.saved, fun _ => hdriven hs⟩
  unfold afterPulse
  dsimp only
  generalize hs1 : (s.onScreen n fun sc => { sc with jamTimer := seconds (s.running.jamTime n) }) = s1 at *
  split
  · next hr hop =>
    split
    · exact hjam.trans ((finishPosition_only ..).orderly fun hs =>
        finishPosition_fits (stage_of hs (by rw [hr]; rfl)).1)
    · exact hjam
  · exact hjam

theorem takePulse_orderly (n : Ix2) (s : State) : Orderly s (takePulse n s) := by
  have hup : Orderly s (s.onScreen n Screen.pulseUp) :=
    orderlyScreen n _ s
  have hdown : Orderly s (s.onScreen n (Screen.pulseDown (s.running.travelLimit n))) :=
    orderlyScreen n _ s
  unfold takePulse
  dsimp only
  split
  · next h =>
    split
    · exact hup.trans (lockRake_orderly ..)
    · exact hup.trans (afterPulse_orderly (.inl (by rw [screen_onScreen]; exact h)))
  · split
    · next h =>
      split
      · exact hdown.trans (lockRake_orderly ..)
      · exact hdown.trans (afterPulse_orderly (.inr (by rw [screen_onScreen]; exact h)))
    · exact .refl s

theorem limitInReverse_orderly {n : Ix2} (b : Bool) {s : State} (h : (s.screen n).rake.claimed = true) :
    Orderly s (limitInReverse n b s) :=
  (limitInReverse_only n b s).orderly fun hs =>
    have hst := stage_of hs h
    limitInReverse_fits b hst.1 hst.2

theorem homeMade_orderly (n : Ix2) (s : State) : Orderly s (homeMade n s) := by
  unfold homeMade
  split
  · next hr => exact (finishHoming_only ..).orderly fun hs => finishHoming_fits (stage_of hs (by rw [hr]; rfl)).1
  · next hr =>
    exact (only_onScreen ..).orderly fun hs =>
      fits_onScreen (dwell_fits (hs.rakeFits n) (by rw [hr]; rfl) rfl rfl rfl rfl rfl)
  · next hr =>
    split
    · exact ((only_onScreen ..).trans (finishPosition_only ..)).orderly fun hs =>
        finishPosition_fits (stage_of hs (by rw [hr]; rfl)).1
    · exact .refl s
  · next hr => exact limitInReverse_orderly true (by rw [hr]; rfl)
  · exact .refl s

theorem bottomMade_orderly (n : Ix2) (s : State) : Orderly s (bottomMade n s) := by
  unfold bottomMade
  split
  · next hr =>
    exact (only_onScreen ..).orderly fun hs =>
      fits_onScreen (dwell_fits (hs.rakeFits n) (by rw [hr]; rfl) rfl rfl rfl rfl rfl)
  · next hr =>
    split
    · exact (finishPosition_only ..).orderly fun hs => finishPosition_fits (stage_of hs (by rw [hr]; rfl)).1
    · exact .refl s
  · next hr => exact limitInReverse_orderly false (by rw [hr]; rfl)
  · exact .refl s

theorem rakeInputMoved_orderly (n : Ix2) (i : RakeInput) (s : State) : Orderly s (rakeInputMoved n i s) := by
  unfold rakeInputMoved
  dsimp only
  split
  · split
    · exact homeMade_orderly ..
    · exact .refl s
  · split
    · exact bottomMade_orderly ..
    · exact .refl s
  · split
    · split
      · exact .refl s
      · exact lockRake_orderly ..
    · exact releaseRake_orderly ..

theorem gripExpires_orderly {n : Ix2} {s : State} (h : (s.screen n).rake = .gripping) : Orderly s (gripExpires n s) := by
  refine ((only_onScreen ..).trans (beginLeg_only ..)).orderly fun hs => ?_
  obtain ⟨hq, ho⟩ := stage_of hs (n := n) (by rw [h]; rfl)
  exact beginLeg_fits _ hq rfl (by rw [screen_onScreen]; exact ho)

theorem dischargeExpires_orderly {n : Ix2} {s : State} (h : (s.screen n).rake = .discharging) :
    Orderly s (dischargeExpires n s) := by
  have hclaimed : (s.screen n).rake.claimed = true := by rw [h]; rfl
  have hout : ∀ {o r c u}, u.power.queue = s.power.queue → QueueOk s →
      .rake n ∉ (writeCompletion n o r c u).power.queue := fun {o r c u} hu hs => by
    rw [writeCompletion_queue, hu]; exact (stage_of hs hclaimed).1
  unfold dischargeExpires
  dsimp only
  split
  · exact ((only_onScreen ..).trans ((writeCompletion_only ..).trans (enterHeld_only ..))).orderly fun hs =>
      enterHeld_fits (hout rfl hs)
  · exact ((only_onScreen ..).trans ((only_onScreen ..).trans (beginLeg_only ..))).orderly fun hs =>
      beginLeg_fits _ (stage_of hs hclaimed).1 rfl (by rw [screen_onScreen]; exact Operation.noConfusion)
  · exact ((only_onScreen ..).trans ((writeCompletion_only ..).trans (enterIdle_only ..))).orderly fun hs =>
      enterIdle_fits (hout rfl hs)

theorem endReverse_orderly {n : Ix2} {s : State} (h : (s.screen n).rake = .reversing) : Orderly s (endReverse n s) := by
  refine (endReverse_only n s).orderly fun hs => ?_
  obtain ⟨hq, ho⟩ := stage_of hs (n := n) (by rw [h]; rfl)
  exact endReverse_fits hq ho

/-- The jam timer runs only in a motor stage, which ends in a reverse or locks the rake (R112). -/
theorem jamExpires_orderly {n : Ix2} {s : State} (h : (s.screen n).jamTimer ≠ none) : Orderly s (jamExpires n s) := by
  have hclaimed : QueueOk s → (s.screen n).rake.claimed = true := fun hs =>
    RakeState.claimed_of_driven ((hs.rakeFits n).motors (.inr (.inr h)))
  have hoff : Orderly s (s.onScreen n fun sc => { sc.drive none with jamTimer := none }) :=
    orderlyScreen n _ s fun _ _ h =>
      ⟨h.queued, h.claims, h.operation, h.saved, fun e => absurd e (Screen.motionless rfl rfl rfl)⟩
  unfold jamExpires lockJam
  dsimp only
  split
  · exact hoff.trans (lockRake_orderly ..)
  · split
    · exact (hoff.trans (orderlyScreen n _ _)).trans (lockRake_orderly ..)
    · refine ((only_onScreen ..).trans ((only_onScreen ..).trans ((only_onScreen ..).trans
        (enterReversing_only ..)))).orderly fun hs => ?_
      obtain ⟨hq, ho⟩ := stage_of hs (hclaimed hs)
      exact enterReversing_fits hq (by rw [screen_onScreen, screen_onScreen, screen_onScreen]; exact ho)

end Sys2Proof.Machine
end


section
/-!
SUPPORT. What the end of an event, the period end, the ports, the link and the settings store carry, in the sense of
Orderly: over every command, uptime and the store image (O10) and the promise of the claim queue (O28).
-/

namespace Sys2Proof.Machine

open Host (Outcome)

theorem PlantFrame.orderly {s t : State} (h : PlantFrame s t) (hq : QueueOk s → QueueOk t) : Orderly s t :=
  ⟨congrArg Clock.uptime h.clock, congrArg Store.image h.store, congrArg Store.checksumGood h.store, hq⟩

/-! The called set -/

theorem mem_calledSet_eligible {s : State} {p : Ix6} (h : p ∈ calledSet s) : (s.pump p).eligible = true := by
  unfold calledSet at h
  obtain h | h := List.mem_append.mp h
  · have hmem := List.mem_filter.mp (List.mem_of_mem_take h)
    exact (Bool.and_eq_true_iff.mp hmem.2).1
  · have hmem := List.mem_filter.mp (List.mem_of_mem_take h)
    exact (Bool.and_eq_true_iff.mp (Bool.and_eq_true_iff.mp hmem.2).1).1

theorem formCalled_pump (p : Ix6) (s : State) :
    (formCalled s).pump p = { s.pump p with called := (calledSet s).contains p } := Six.get_gen ..

/-- A pump called is in AUTO (R39). -/
theorem formCalled_auto {s : State} {p : Ix6} (h : ((formCalled s).pump p).called = true) :
    ((formCalled s).pump p).selector = .auto := by
  rw [formCalled_pump] at h ⊢
  have he := mem_calledSet_eligible (List.contains_iff_mem.mp h)
  simp only [Pump.eligible, Bool.and_eq_true, decide_eq_true_eq] at he
  exact he.1.1.1

/-! The moves of an event's end -/

theorem EdgeFrame.claimOf {s t : State} (h : EdgeFrame s t) : ∀ c, Machine.claimOf t c = Machine.claimOf s c
  | .pump p => congrArg Pump.claim (h.pump p)
  | .rake n => congrArg Screen.claim (h.screen n)

theorem setMark_claimOf (c : Claimant) (v : Bool) (s : State) : claimOf (setMark c v s) c = claimOf s c := by
  cases c with
  | pump p =>
    show ((s.onPump p _).pump p).claim = _
    rw [pump_onPump]
    rfl
  | rake n =>
    show ((s.onScreen n _).screen n).claim = _
    rw [screen_onScreen]
    rfl

theorem markShed_claimOf (c : Claimant) (short : Nat) (s : State) : claimOf (markShed c short s) c = claimOf s c := by
  unfold markShed
  dsimp only
  split
  · exact setMark_claimOf ..
  · exact ((raiseKind_frame ..).claimOf c).trans (setMark_claimOf ..)

theorem setMark_orderly (c : Claimant) (v : Bool) (s : State) : Orderly s (setMark c v s) := by
  cases c with
  | pump p => exact orderlyPump p _ s
  | rake n => exact orderlyScreen n _ s

theorem markShed_orderly (c : Claimant) (short : Nat) (s : State) : Orderly s (markShed c short s) := by
  unfold markShed
  dsimp only
  split
  · exact setMark_orderly ..
  · exact (setMark_orderly ..).trans (raiseKind_frame ..).orderly

theorem clearShed_orderly (c : Claimant) (s : State) : Orderly s (clearShed c s) :=
  (setMark_orderly ..).trans (offerEdges_frame ..).orderly

/-- A claim held is that of a pump that runs, or of a rake in a stage. -/
theorem shed_orderly {short : Nat} {c : Claimant} {s : State} (h : (claimOf s c).isSome = true) :
    Orderly s (shed short c s) := by
  have hmark : Orderly s (setFlag .power (markShed c short s)) :=
    (markShed_orderly ..).trans (setFlag_frame ..).orderly
  have hclaim : claimOf (setFlag .power (markShed c short s)) c ≠ none := by
    rw [(setFlag_frame ..).claimOf, markShed_claimOf]
    exact Option.isSome_iff_ne_none.mp h
  unfold shed
  dsimp only
  generalize setFlag .power (markShed c short s) = u at hmark hclaim
  cases c with
  | pump p =>
    refine hmark.trans (stopPump_orderly .shed fun hs hq => ?_)
    obtain e | e := (hs.pumpFits p).claims hclaim <;> rw [hq] at e <;> cases e
  | rake n =>
    refine hmark.trans ((pauseRake_only n u).orderly fun hs => ?_)
    have hstage := (hs.rakeFits n).claims hclaim
    exact pauseRake_fits hstage (stage_of hs hstage).2

theorem shedAll_orderly (s : State) : Orderly s (shedAll s) := by
  refine orderly_foldl _ (fun s c => ?_) _ s
  unfold shedNext
  split
  · next h => exact shed_orderly (Bool.and_eq_true_iff.mp h).2
  · exact .refl s

theorem unqueuePump_orderly {p : Ix6} {s : State} (h : (s.pump p).seq = .queued) : Orderly s (unqueuePump p s) := by
  refine Orderly.trans (((only_onPump p _ s).trans (waitNoMore_only ..)).orderly fun hs => waitNoMore_pump_fits ?_ ?_)
    (offerEdges_frame ..).orderly
  · rw [pump_onPump]; rfl
  · rw [pump_onPump]
    exact (hs.pumpFits p).unclaimed (by rw [h]; decide) (by rw [h]; decide)

/-- An IDLE pump in AUTO joins the queue. -/
theorem queuePump_orderly {p : Ix6} {s : State} (h : (s.pump p).seq = .idle) (ha : (s.pump p).selector = .auto) :
    Orderly s (queuePump p s) := by
  refine ((only_onPump p _ s).trans (joinQueue_only ..)).orderly fun hs => ?_
  have hc := (hs.pumpFits p).unclaimed (by rw [h]; decide) (by rw [h]; decide)
  show PumpFits _ ((queuePump p s).pump p)
  unfold queuePump
  rw [joinQueue_pump, pump_onPump, propext (mem_joinQueue ..)]
  exact ⟨iff_of_true (.inl rfl) rfl, fun _ => ha, fun e => absurd hc e⟩

theorem grantPump_only (p : Ix6) (s : State) : Only (.pump p) s (grantPump p s) := by
  have hstart : Only (.pump p) s ((s.onPump p (Pump.start s.running p s.clock.uptime)).onPower fun w =>
      { w with stagger := seconds s.running.staggerTime }) :=
    (only_onPump p _ s).trans (only_of_same _ rfl rfl rfl rfl rfl)
  exact hstart.trans ((offerEdges_frame ..).only _)

/-- The grant of a pump that waits. -/
theorem grantPump_orderly {p : Ix6} {s : State} (h : .pump p ∈ s.power.queue) :
    Orderly s (grant (.pump p) s) := by
  have honly : Only (.pump p) s (grant (.pump p) s) :=
    (leaveQueue_only ..).trans (grantPump_only ..)
  refine honly.orderly fun hs => ?_
  have hf := hs.pumpFits p
  show PumpFits _ ((grantPump p (leaveQueue (.pump p) s)).pump p)
  rw [grantPump_pump, if_pos rfl]
  unfold grant grantPump
  dsimp only
  rw [(offerEdges_frame ..).power]
  exact ⟨iff_of_false (not_mem_leaveQueue _ s) Seq.noConfusion, fun _ => hf.auto (.inl (hf.queued.mp h)),
    fun _ => .inl rfl⟩

theorem clearShed_queue (c : Claimant) (s : State) : (clearShed c s).power.queue = s.power.queue := by
  unfold clearShed
  rw [(offerEdges_frame ..).power, setMark_queue]

theorem clearShed_screen (n : Ix2) (s : State) :
    (clearShed (.rake n) s).screen n = { s.screen n with shedMark := false } := by
  unfold clearShed
  rw [(offerEdges_frame ..).screen]
  exact screen_onScreen ..

/-- A rake granted holds its claim, its shed mark cleared (R86, R89), before it enters a stage. -/
def claimRake (n : Ix2) (s : State) : State :=
  clearShed (.rake n) (s.onScreen n fun sc => { sc with claim := some (s.running.rakeUnits n) })

theorem claimRake_screen (n : Ix2) (s : State) : (claimRake n s).screen n =
    { s.screen n with claim := some (s.running.rakeUnits n), shedMark := false } := by
  unfold claimRake
  rw [clearShed_screen, screen_onScreen]

theorem claimRake_only (n : Ix2) (s : State) : Only (.rake n) s (claimRake n s) :=
  (only_onScreen ..).trans (clearShed_only ..)

theorem claimRake_queue (n : Ix2) (s : State) : (claimRake n s).power.queue = s.power.queue := clearShed_queue ..

/-- The grant of a PAUSED rake: it resumes the stage it saved (R110). -/
theorem grantRake_paused {n : Ix2} {s : State} {st : RakeState} (hr : (s.screen n).rake = .paused)
    (hs : (s.screen n).saved = some st) :
    grantRake n s = resumeStage n st ((claimRake n s).onScreen n fun sc => { sc with saved := none }) := by
  have hrake : ((claimRake n s).screen n).rake = .paused := by rw [claimRake_screen]; exact hr
  have hsaved : ((claimRake n s).screen n).saved = some st := by rw [claimRake_screen]; exact hs
  show (match ((claimRake n s).screen n).rake, ((claimRake n s).screen n).saved with
    | .paused, some st => resumeStage n st ((claimRake n s).onScreen n fun sc => { sc with saved := none })
    | _, _ => firstStage n (claimRake n s)) = _
  rw [hrake, hsaved]

/-- The grant of a rake that is not PAUSED: it enters the first stage of its operation (R100). -/
theorem grantRake_waiting {n : Ix2} {s : State} (hr : (s.screen n).rake ≠ .paused) :
    grantRake n s = firstStage n (claimRake n s) := by
  have hrake : ((claimRake n s).screen n).rake ≠ .paused := by rw [claimRake_screen]; exact hr
  show (match ((claimRake n s).screen n).rake, ((claimRake n s).screen n).saved with
    | .paused, some st => resumeStage n st ((claimRake n s).onScreen n fun sc => { sc with saved := none })
    | _, _ => firstStage n (claimRake n s)) = _
  split
  · exact absurd ‹_› hrake
  · rfl

/-- The grant of a rake that waits: it enters its first stage, or the one it saved. -/
theorem grantRake_queueOk {n : Ix2} {s : State} (h : .rake n ∈ s.power.queue) (hs : QueueOk s) :
    QueueOk (grant (.rake n) s) := by
  have hf := hs.rakeFits n
  have hwait := hf.queued.mp h
  have hop : (s.screen n).op ≠ .none := hf.operation (hwait.elim .inl fun e => .inr (.inl e))
  have hstill := hf.still (by obtain e | e := hwait <;> rw [e] <;> rfl)
  have hleave : Only (.rake n) s (claimRake n (leaveQueue (.rake n) s)) :=
    (leaveQueue_only ..).trans (claimRake_only ..)
  have hout : .rake n ∉ (claimRake n (leaveQueue (.rake n) s)).power.queue := by
    rw [claimRake_queue]
    exact not_mem_leaveQueue _ s
  show QueueOk (grantRake n (leaveQueue (.rake n) s))
  obtain hr | hr := hwait
  · rw [grantRake_waiting (s := leaveQueue (.rake n) s) fun e => absurd (hr.symm.trans e) (by decide)]
    exact (hleave.trans (firstStage_only ..)).queueOk hs (firstStage_fits hout (by rw [claimRake_screen]; exact hop))
  · obtain ⟨st, hst, hcl⟩ := hf.saved hr
    rw [grantRake_paused (show ((leaveQueue (.rake n) s).screen n).rake = .paused from hr) hst]
    refine ((hleave.trans (only_onScreen ..)).trans (resumeStage_only ..)).queueOk hs
      (resumeStage_fits hout hcl ?_ ?_)
    · rw [screen_onScreen, claimRake_screen]; exact hop
    · rw [screen_onScreen, claimRake_screen]; exact hstill

theorem grant_orderly {c : Claimant} {s : State} (h : c ∈ s.power.queue) : Orderly s (grant c s) := by
  cases c with
  | pump p => exact grantPump_orderly h
  | rake n => exact (grant_frame ..).orderly (grantRake_queueOk h)

/-- Every move that an event leaves to do, where the pumps called are in AUTO. -/
theorem nextMove_orderly {s : State} {f : State → State} (h : nextMove s = some f)
    (ha : ∀ p, (s.pump p).called = true → (s.pump p).selector = .auto) : Orderly s (f s) := by
  unfold nextMove at h
  split at h
  · cases h; exact shedAll_orderly s
  split at h
  · next p hp =>
    cases h
    have hw := List.find?_some hp
    simp only [Pump.withdrawn, Bool.and_eq_true, decide_eq_true_eq] at hw
    exact stopPump_orderly _ fun _ => by rw [hw.1.1]; decide
  split at h
  · next p hp =>
    cases h
    have hw := List.find?_some hp
    simp only [Bool.and_eq_true, decide_eq_true_eq] at hw
    exact unqueuePump_orderly hw.1
  split at h
  · next p hp =>
    cases h
    have hw := List.find?_some hp
    simp only [Bool.and_eq_true, decide_eq_true_eq] at hw
    exact queuePump_orderly hw.1 (ha p hw.2)
  split at h
  · next c hc =>
    cases h
    exact grant_orderly (List.mem_of_head? (Option.filter_eq_some_iff.mp hc).1)
  · obtain ⟨n, -, rfl⟩ := Option.map_eq_some_iff.mp h
    exact testIdle_orderly n s

theorem settleMoves_orderly (k : Nat) (s : State) : Orderly s (settleMoves k s) := by
  induction k generalizing s with
  | zero => exact formCalled_orderly s
  | succ k ih =>
    unfold settleMoves
    dsimp only
    split
    · next f hf =>
      exact ((formCalled_orderly s).trans (nextMove_orderly hf fun _ => formCalled_auto)).trans (ih _)
    · exact formCalled_orderly s

theorem clearIdleShed_orderly (s : State) : Orderly s (clearIdleShed s) := by
  refine orderly_foldl _ (fun s p => ?_) _ s
  split
  · exact clearShed_orderly ..
  · exact .refl s

theorem settle_orderly (s : State) : Orderly s (settle s) :=
  ((settleMoves_orderly ..).trans (clearIdleShed_orderly _)).trans (testAck_orderly _)

theorem finish_orderly (s : State) : Orderly s (finish s) :=
  have hann : Orderly (testSaturation s) (annunciate (testSaturation s)) :=
    orderly_same rfl rfl rfl rfl rfl rfl
  ((testSaturation_frame s).orderly.trans hann).trans (transmit_frame _).orderly

theorem conclude_orderly (s : State) : Orderly s (conclude s) := (settle_orderly s).trans (finish_orderly _)

/-! Levels and balance -/

theorem judgeRound_orderly (v : Six (BitVec 12)) (r : BitVec 12) (s : State) : Orderly s (judgeRound v r s) := by
  unfold judgeRound
  dsimp only
  split
  · split
    · exact ((orderlyLevel _ s).trans (orderlyLevel ..)).trans (returnKind_frame ..).orderly
    · exact orderlyLevel _ s
  · split
    · exact ((orderlyLevel _ s).trans (orderlyLevel ..)).trans (raiseKind_frame ..).orderly
    · exact orderlyLevel _ s

theorem takeRound_orderly (v : Six (BitVec 12)) (r : BitVec 12) (s : State) : Orderly s (takeRound v r s) :=
  (orderlyLevel _ s).trans (judgeRound_orderly ..)

theorem levelPeriodEnd_orderly (s : State) : Orderly s (levelPeriodEnd s) :=
  (orderlyLevel _ s).trans (offerEdges_frame ..).orderly

theorem followHighHighFloat_orderly (s : State) : Orderly s (followHighHighFloat s) :=
  (orderlyLevel _ s).trans (offerEdges_frame ..).orderly

theorem stageVolume_orderly (s : State) : Orderly s (stageVolume s) := by
  unfold stageVolume
  split <;> exact orderlyBalance _ s

theorem stageHead_orderly (s : State) : Orderly s (stageHead s) := by
  unfold stageHead
  split <;> exact orderlyBalance _ s

theorem stageInflow_orderly (p : Nat) (s : State) : Orderly s (stageInflow p s) := by
  unfold stageInflow
  split <;> exact orderlyBalance _ s

theorem stageClass_orderly (p : Nat) (s : State) : Orderly s (stageClass p s) := by
  unfold stageClass
  split
  · exact .refl s
  · dsimp only
    split
    · exact orderlyBalance _ s
    · exact (orderlyBalance _ s).trans (setFlag_frame ..).orderly

theorem stageWeir_orderly (w : Ix2) (s : State) : Orderly s (stageWeir w s) := by
  unfold stageWeir
  split <;> exact orderlyBalance _ s

theorem stageSpill_orderly (p : Nat) (s : State) : Orderly s (stageSpill p s) := by
  unfold stageSpill
  dsimp only
  split
  · exact (orderlyBalance _ s).trans (setFlag_frame ..).orderly
  · exact orderlyBalance _ s

theorem balancePeriodEnd_orderly (p : Nat) (s : State) : Orderly s (balancePeriodEnd p s) := by
  have hclass := ((((stageVolume_orderly s).trans (stageHead_orderly _)).trans (stageFlow_orderly _)).trans
    (stageInflow_orderly p _)).trans (stageClass_orderly p _)
  unfold balancePeriodEnd
  dsimp only
  split
  · exact (((hclass.trans (wakeLink_frame true _).orderly).trans (stageWeir_orderly ..)).trans
      (stageWeir_orderly ..)).trans (stageSpill_orderly ..)
  · exact ((hclass.trans (stageWeir_orderly ..)).trans (stageWeir_orderly ..)).trans (stageSpill_orderly ..)

theorem separationExpires_orderly (w : Ix2) (s : State) : Orderly s (separationExpires w s) :=
  ((orderlyBalance _ s).trans (setFlag_frame ..).orderly).trans (returnKind_frame ..).orderly

/-! The duty -/

theorem wantedPeriodEnd_orderly (s : State) : Orderly s (wantedPeriodEnd s) := by
  unfold wantedPeriodEnd
  split
  · exact orderlyDuty _ s
  · exact (orderlyDuty _ s).trans (orderlyDuty ..)

theorem wantedAtFloat_orderly (f : FloatId) (s : State) : Orderly s (wantedAtFloat f s) := by
  unfold wantedAtFloat
  split
  · exact orderlyDuty _ s
  · split
    · exact orderlyDuty _ s
    · exact .refl s

theorem endDrawdown_orderly (s : State) : Orderly s (endDrawdown s) :=
  (orderlyDuty _ s).trans (offerEdges_frame ..).orderly

theorem beginDrawdown_orderly (d m : Nat) (s : State) : Orderly s (beginDrawdown d m s) := by
  unfold beginDrawdown
  dsimp only
  split
  · exact orderlyDuty _ s
  · exact (orderlyDuty _ s).trans (raiseKind_frame ..).orderly

/-! The period end -/

theorem blocksPeriodEnd_orderly (b : Bool) (s : State) : Orderly s (blocksPeriodEnd b s) := by
  have h : Orderly s (if b then s.onDuty Duty.endDrawdown else s) := by
    split
    · exact orderlyDuty _ s
    · exact .refl s
  exact (h.trans (headPeriodEnd_orderly _)).trans (formScreens_orderly _)

theorem showPeriod_orderly (s : State) : Orderly s (showPeriod s) := orderly_same rfl rfl rfl rfl rfl rfl

theorem offerPeriodEdges_orderly (handed formed : State) : Orderly formed (offerPeriodEdges handed formed) :=
  (offerStages_frame ..).orderly

theorem takePeriodEnd_orderly (s : State) : Orderly s (takePeriodEnd s) :=
  ((((((((levelPeriodEnd_orderly s).trans (balancePeriodEnd_orderly ..)).trans (blocksPeriodEnd_orderly ..)).trans
    (offerPeriodEdges_orderly ..)).trans (wantedPeriodEnd_orderly _)).trans (settle_orderly _)).trans
    (testAllTriggers_orderly _)).trans (settle_orderly _)).trans (showPeriod_orderly _)

/-! Acknowledgement and the table -/

theorem linkNotice_orderly (s : State) : Orderly s (linkNotice s) := by
  unfold linkNotice
  split
  · exact (orderlyLink _ s).trans ((orderlyLink ..).trans (returnKind_frame ..).orderly)
  · exact .refl s

theorem sendNotice_orderly (k : Key) (s : State) : Orderly s (sendNotice k s) := by
  unfold sendNotice
  split
  · split
    · exact pumpNotice_orderly ..
    · exact .refl s
  · split
    · exact rakeNotice_orderly ..
    · exact .refl s
  · split
    · exact linkNotice_orderly s
    · exact .refl s

theorem ackRecord_orderly (i : Nat) (party : Party) (s : State) : Orderly s (ackRecord i party s).2 := by
  unfold ackRecord
  split
  · exact .refl s
  split
  · dsimp only
    split
    · exact (changeRecord_frame ..).orderly.trans (sendNotice_orderly ..)
    · exact (changeRecord_frame ..).orderly
  · dsimp only
    split
    · exact (changeRecord_frame ..).orderly
    · exact (changeRecord_frame ..).orderly.trans (serve_frame _).orderly
  · exact .refl s

theorem takeAcknowledge_orderly (i g : Nat) (party : Party) (s : State) :
    Orderly s (takeAcknowledge i g party s).2 := by
  unfold takeAcknowledge
  split
  · exact ackRecord_orderly ..
  · exact .refl s

theorem takeRetire_orderly (i g : Nat) (s : State) : Orderly s (takeRetire i g s).2 := by
  unfold takeRetire
  split
  · split
    · exact (retireSlot_frame ..).orderly
    · exact .refl s
  · exact .refl s

theorem ackFold_orderly (l : List (Nat × Nat)) (a : Nat × State) : Orderly a.2 (l.foldl ackNext a).2 := by
  induction l generalizing a with
  | nil => exact .refl _
  | cons h l ih =>
    refine Orderly.trans ?_ (ih _)
    unfold ackNext
    split
    · exact ackRecord_orderly ..
    · exact .refl _

theorem takeAckAll_orderly (m : Severity) (c : Option SourceClass) (sh : Bool) (s : State) :
    Orderly s (takeAckAll m c sh s).2.2 := by
  unfold takeAckAll
  split
  · exact .refl s
  · exact ackFold_orderly _ (0, s)

theorem takeRetireDormant_orderly (s : State) : Orderly s (takeRetireDormant s).2 :=
  (((orderly_foldl (fun s i => removeRecord i s) (fun s i => (removeRecord_frame i s).orderly)
    (dormantSlots s.table) s).trans (orderlyTable ..)).trans (setFlag_frame ..).orderly).trans (serve_frame _).orderly

theorem ackRaised_orderly (ks : List Key) (s : State) : Orderly s (ackRaised ks s) := by
  refine orderly_foldl _ (fun s i => ?_) _ s
  split
  · split
    · exact (changeRecord_frame ..).orderly
    · exact .refl s
  · exact .refl s

theorem resetPump_orderly (p : Ix6) (s : State) : Orderly s (resetPump p s).2 := by
  unfold resetPump
  dsimp only
  split
  · exact .refl s
  · exact ((orderlyPump p _ s).trans (ackRaised_orderly ..)).trans (releaseReasons_orderly ..)

theorem resetRake_orderly (n : Ix2) (s : State) : Orderly s (resetRake n s).2 := by
  unfold resetRake
  dsimp only
  split
  · exact .refl s
  · exact ((orderlyScreen n _ s).trans (ackRaised_orderly ..)).trans (releaseRake_orderly ..)

theorem takeReset_orderly (c n : Nat) (s : State) : Orderly s (takeReset c n s).2 := by
  unfold takeReset
  split
  · exact resetPump_orderly ..
  · exact resetRake_orderly ..
  · exact .refl s

theorem takeSilence_orderly (s : State) : Orderly s (takeSilence s).2 := by
  unfold takeSilence
  split
  · exact orderlyAnn (fun a => { a with silence := true, horn := false }) s
  · exact .refl s

theorem shelveSlot_orderly (i m : Nat) (s : State) : Orderly s (shelveSlot i m s) := by
  unfold shelveSlot
  split
  · exact .refl s
  · dsimp only
    split
    · exact orderlyTable _ s
    · exact (changeRecord_frame ..).orderly

theorem takePost_orderly (c : Nat) (sev : Severity) (x : List Byte) (s : State) : Orderly s (takePost c sev x s).2 := by
  have h := (countRaise_frame s).orderly
  unfold takePost
  dsimp only
  split
  · exact h.trans (raiseSeated_frame ..).orderly
  split
  · exact h.trans (seat_frame ..).orderly
  · exact h.trans (countSuppression_frame ..).orderly

theorem takeReturn_orderly (c : Nat) (s : State) : Orderly s (takeReturn c s).2 := by
  unfold takeReturn
  dsimp only
  split
  · split
    · exact (returnKey_frame ..).orderly
    · exact .refl s
  · exact .refl s

/-! The town link -/

theorem protocolFault_orderly (r : Nat) (b : Byte) (s : State) : Orderly s (protocolFault r b s) :=
  (orderlyLink _ s).trans (raiseKind_frame ..).orderly

theorem enterLost_orderly (s : State) : Orderly s (enterLost s) :=
  (((orderlyLink _ s).trans (setFlag_frame ..).orderly).trans (clearTownMarks_orderly _)).trans (orderlyDuty ..)

theorem enterOffline_orderly (s : State) : Orderly s (enterOffline s) :=
  (orderlyLink _ s).trans (setFlag_frame ..).orderly

theorem commitLink_orderly (s : State) : Orderly s (commitLink s) := by
  unfold commitLink
  split
  · split
    · exact (orderlyLink _ s).trans (setFlag_frame ..).orderly
    · split
      · exact .refl s
      · exact orderlyLink _ s
    · exact .refl s
  split
  · exact .refl s
  split
  · exact (enterLost_orderly s).trans (enterOffline_orderly _)
  · exact enterOffline_orderly s

theorem heartbeatExpires_orderly (s : State) : Orderly s (heartbeatExpires s) :=
  ((enterLost_orderly s).trans (orderlyLink ..)).trans (offerEdges_frame ..).orderly

theorem setStation_orderly (t : Stamp) (s : State) : Orderly s (setStation t s) := orderlyClock _ s rfl

theorem join_orderly (town : Stamp) (g p : Nat) (s : State) : Orderly s (join town g p s) := by
  have hif : ∀ (b : Bool) (u v w : State), Orderly s v → Orderly v u → Orderly v w →
      Orderly s (if b then u else w) := by
    intro b u v w h hu hw
    cases b
    · exact h.trans hw
    · exact h.trans hu
  have h1 : Orderly s (setFlag .link (s.onLink fun l => { l with
      state := .online, offerTimer := none, offersOwed := 0, grant := some g, period := some p, credits := g })) :=
    (orderlyLink _ s).trans (setFlag_frame ..).orderly
  unfold join
  dsimp only
  generalize setFlag .link (s.onLink fun l => { l with
      state := .online, offerTimer := none, offersOwed := 0, grant := some g, period := some p, credits := g }) = s1
    at h1 ⊢
  have h2 := (hif s.running.acceptTownTime (setStation town s1) s1 s1 h1 (setStation_orderly ..) (.refl _)).trans
    (clearNoticeMarks_frame _).orderly
  generalize clearNoticeMarks (if s.running.acceptTownTime then setStation town s1 else s1) = s2 at h2 ⊢
  have h3 := hif s2.link.protocolCause (releaseProtocol s2) s2 s2 h2
    ((orderlyLink ..).trans (returnKind_frame ..).orderly) (.refl _)
  generalize (if s2.link.protocolCause then releaseProtocol s2 else s2) = s3 at h3 ⊢
  exact (hif s3.link.lostCause _ s3 s3 h3 ((orderlyLink (fun l => { l with lostCause := false }) s3).trans
    (returnKind_frame ..).orderly) (.refl _)).trans (orderlyLink ..)

theorem takeAccept_orderly (p : List Byte) (s : State) : Orderly s (takeAccept p s) := by
  unfold takeAccept
  split
  · exact join_orderly ..
  · exact protocolFault_orderly ..

theorem takeHeartbeat_orderly (p : List Byte) (s : State) : Orderly s (takeHeartbeat p s) := by
  unfold takeHeartbeat
  split
  · dsimp only
    split
    · exact ((orderlyLink _ s).trans (protocolFault_orderly ..)).trans (orderlyLink ..)
    · exact (orderlyLink _ s).trans (orderlyLink ..)
  · exact protocolFault_orderly ..

theorem takeTally_orderly (w : Nat) (s : State) : Orderly s (takeTally w s).2 := by
  unfold takeTally
  split
  · exact (orderlyBalance _ s).trans (setFlag_frame ..).orderly
  · exact .refl s

theorem takeInhibit_orderly (p on : Nat) (s : State) : Orderly s (takeInhibit p on s).2 := by
  unfold takeInhibit
  split
  · split
    · dsimp only
      split
      · exact .refl s
      · exact setInhibit_orderly ..
    split
    · dsimp only
      split
      · exact clearInhibit_orderly ..
      · exact .refl s
    · exact .refl s
  · exact .refl s

theorem takeDrawdown_orderly (o m : Nat) (s : State) : Orderly s (takeDrawdown o m s).2 := by
  unfold takeDrawdown
  split
  · exact .refl s
  split
  · exact endDrawdown_orderly s
  · exact beginDrawdown_orderly ..

theorem takeQuietAsk_orderly (s : State) : Orderly s (takeQuietAsk s).2 := by
  unfold takeQuietAsk
  split
  · exact .refl s
  · exact (orderlyLink _ s).trans (setFlag_frame ..).orderly

theorem answerRequest_orderly (k : Byte) (p : List Byte) (s : State) : Orderly s (answerRequest k p s).2 := by
  unfold answerRequest
  split
  · exact .refl s
  split
  · exact .refl s
  unfold runRequest
  split
  · exact .refl s
  · exact .refl s
  · exact .refl s
  · exact takeAcknowledge_orderly ..
  · exact takeRetire_orderly ..
  · exact .refl s
  · exact takeTally_orderly ..
  · exact takeInhibit_orderly ..
  · exact takeDrawdown_orderly ..
  · exact takeQuietAsk_orderly s

theorem takeRequest_orderly (k tag : Byte) (p : List Byte) (s : State) : Orderly s (takeRequest k tag p s) := by
  refine (wakeLink_frame false s).orderly.trans ?_
  show Orderly _ (takeAdmitted k tag p (wakeLink false s))
  unfold takeAdmitted
  split
  · exact protocolFault_orderly ..
  split
  · exact protocolFault_orderly ..
  · exact (answerRequest_orderly ..).trans (orderlyLink ..)

theorem joinedArrival_orderly (k tag : Byte) (p : List Byte) (s : State) : Orderly s (joinedArrival k tag p s) := by
  unfold joinedArrival
  split
  · exact .refl s
  · exact takeHeartbeat_orderly ..
  · split
    · exact (wakeLink_frame ..).orderly
    · exact .refl s
  · exact takeRequest_orderly ..

theorem takeFrame_orderly (k tag : Byte) (p : List Byte) (s : State) : Orderly s (takeFrame k tag p s) := by
  unfold takeFrame
  split
  · split
    · exact takeAccept_orderly ..
    · exact .refl s
  · exact joinedArrival_orderly ..
  · exact joinedArrival_orderly ..
  · exact .refl s
  · exact .refl s

theorem arrive_orderly (k tag : Byte) (p : List Byte) (s : State) : Orderly s (arrive k tag p s) := by
  unfold arrive
  split
  · exact .refl s
  · exact ((orderlyLink _ s).trans (takeFrame_orderly ..)).trans (conclude_orderly _)

theorem badFrame_orderly (s : State) : Orderly s (badFrame s) := (orderlyLink _ s).trans (orderlyLink ..)

theorem receiveByte_orderly (b : Byte) (s : State) : Orderly s (receiveByte b s) := by
  unfold receiveByte
  split
  · exact .refl s
  split
  · split
    · exact orderlyLink _ s
    · exact .refl s
  · unfold takeByte
    split
    · exact .refl s
    split
    · exact badFrame_orderly s
    split
    · split
      · exact arrive_orderly ..
      · exact badFrame_orderly s
    · exact orderlyLink _ s

/-! The settings store -/

theorem applyCommit_orderly (s : State) : Orderly s (applyCommit s) := by
  have h1 : Orderly s (s.onStore fun st => { st with running := st.staging, writing := some 25 }) :=
    orderlyStore _ s rfl rfl
  unfold applyCommit
  dsimp only
  generalize (s.onStore fun st => { st with running := st.staging, writing := some 25 }) = s1 at h1 ⊢
  have h2 : Orderly s (if tableMoved s.store.running s.store.staging then s1.onBalance fun b => { b with vPrev := none }
      else s1) := by
    split
    · exact h1.trans (orderlyBalance ..)
    · exact h1
  exact (((((h2.trans (trimAllHistories_orderly _)).trans (orderlyScreen ..)).trans (orderlyScreen ..)).trans
    (commitLink_orderly _)).trans (makeChanges_frame ..).orderly).trans (setFlag_frame ..).orderly

theorem answerCommit_orderly (c : ReplyCode) (s : State) : Orderly s (answerCommit c s) := by
  unfold answerCommit
  split
  · exact orderlyPort _ s
  · exact .refl s

theorem stopWrite_orderly (s : State) : Orderly s (stopWrite s) :=
  (orderlyStore _ s rfl rfl).trans (setFlag_frame ..).orderly

theorem raiseWriteFail_orderly (x : Byte) (s : State) : Orderly s (raiseWriteFail x s) :=
  (orderlyStore _ s rfl rfl).trans (raiseKind_frame ..).orderly

/-- A write that does not end well leaves the image. -/
theorem endWrite_orderly {e : WriteEnd} (h : e ≠ .complete) (s : State) : Orderly s (endWrite e s) := by
  cases e with
  | complete => exact absurd rfl h
  | failed | timedOut =>
    exact ((stopWrite_orderly s).trans (raiseWriteFail_orderly ..)).trans (answerCommit_orderly ..)

/-! Panel commands -/

theorem reply_orderly (c : ReplyCode) (bs : List Byte) (s : State) : Orderly s (reply c bs s) :=
  orderlyPort (fun p => { p with phase := .result (byte c.code :: bs) }) s

theorem settleReply_orderly {s : State} {r : ReplyCode × State} (h : Orderly s r.2) : Orderly s (settleReply r) :=
  (h.trans (reply_orderly ..)).trans (conclude_orderly _)

theorem endStream_orderly (c : ReplyCode) (d r : Nat) (s : State) : Orderly s (endStream c d r s) :=
  (orderlyPort _ s).trans (reply_orderly ..)

theorem seekRecord_orderly (st : Stream) (s : State) : Orderly s (seekRecord st s) := by
  unfold seekRecord
  split
  · exact orderlyPort _ s
  · exact endStream_orderly ..

theorem takeStreamByte_orderly (tc : Bool) (st : Stream) (s : State) : Orderly s (takeStreamByte tc st s) := by
  unfold takeStreamByte
  split
  · exact .refl s
  · unfold afterRecord
    dsimp only
    split
    · exact endStream_orderly ..
    split
    · exact endStream_orderly ..
    · exact seekRecord_orderly ..
  split
  · exact endStream_orderly ..
  · exact orderlyPort _ s

theorem portResets_orderly (s : State) : Orderly s (portResets s) :=
  (orderlyStore _ s rfl rfl).trans (orderlyPort ..)

theorem cmdInhibit_orderly (p : Nat) (s : State) : Orderly s (cmdInhibit p s) := by
  unfold cmdInhibit
  split
  · split
    · exact reply_orderly ..
    · exact settleReply_orderly (setInhibit_orderly ..)
  · exact reply_orderly ..

theorem cmdRelease_orderly (p : Nat) (s : State) : Orderly s (cmdRelease p s) := by
  unfold cmdRelease
  split
  · split
    · exact settleReply_orderly (clearInhibit_orderly ..)
    · exact reply_orderly ..
  · exact reply_orderly ..

theorem cmdSetOrder_orderly (ns : List Nat) (s : State) : Orderly s (cmdSetOrder ns s) := by
  unfold cmdSetOrder
  split
  · split
    · exact reply_orderly ..
    · exact settleReply_orderly (orderly_same rfl rfl rfl rfl rfl rfl)
  · exact reply_orderly ..

theorem cmdLoadTotals_orderly (p r n : Nat) (s : State) : Orderly s (cmdLoadTotals p r n s) := by
  unfold cmdLoadTotals
  split
  · split
    · exact (orderlyPump _ _ s).trans (reply_orderly ..)
    · exact reply_orderly ..
  · exact reply_orderly ..

theorem cmdSense_orderly (n : Nat) (s : State) : Orderly s (cmdSense n s) := by
  unfold cmdSense
  split
  · split
    · exact (orderlyScreen _ _ s).trans (reply_orderly ..)
    · exact reply_orderly ..
  · exact reply_orderly ..

theorem cmdReadConditions_orderly (a b c d e f : Nat) (s : State) : Orderly s (cmdReadConditions a b c d e f s) := by
  unfold cmdReadConditions
  split
  · split
    · exact seekRecord_orderly ..
    · exact reply_orderly ..
  · exact reply_orderly ..

theorem cmdAckAll_orderly (a b c : Nat) (s : State) : Orderly s (cmdAckAll a b c s) := by
  unfold cmdAckAll
  split
  · split
    · exact ((takeAckAll_orderly ..).trans (reply_orderly ..)).trans (conclude_orderly _)
    · exact reply_orderly ..
  · exact reply_orderly ..

theorem cmdShelve_orderly (a b c : Nat) (s : State) : Orderly s (cmdShelve a b c s) := by
  unfold cmdShelve
  split
  · exact reply_orderly ..
  split
  · split
    · exact settleReply_orderly (shelveSlot_orderly ..)
    · exact reply_orderly ..
  · exact reply_orderly ..

theorem cmdUnshelve_orderly (a b : Nat) (s : State) : Orderly s (cmdUnshelve a b s) := by
  unfold cmdUnshelve
  split
  · exact reply_orderly ..
  split
  · exact settleReply_orderly (unshelveSlot_frame ..).orderly
  · exact reply_orderly ..

theorem cmdPost_orderly (a b c : Nat) (x : List Byte) (s : State) : Orderly s (cmdPost a b c x s) := by
  unfold cmdPost
  split
  · split
    · exact ((takePost_orderly ..).trans (reply_orderly ..)).trans (conclude_orderly _)
    · exact reply_orderly ..
  · exact reply_orderly ..

theorem cmdLoadSettings_orderly (a b c : Nat) (s : State) : Orderly s (cmdLoadSettings a b c s) := by
  unfold cmdLoadSettings
  split
  · exact (orderlyStore _ s rfl rfl).trans (reply_orderly ..)
  · exact reply_orderly ..

theorem cmdCommit_orderly (s : State) : Orderly s (cmdCommit s) := by
  unfold cmdCommit
  split
  · exact reply_orderly ..
  split
  · exact (setFlag_frame ..).orderly.trans (reply_orderly ..)
  · exact ((applyCommit_orderly s).trans (orderlyPort ..)).trans (conclude_orderly _)

theorem cmdSetClock_orderly (a b : Nat) (s : State) : Orderly s (cmdSetClock a b s) := by
  unfold cmdSetClock
  split
  · exact (setStation_orderly ..).trans (reply_orderly ..)
  · exact reply_orderly ..

/-- The rake commands: what a screen's command does, or no screen. -/
theorem rakeCommand_orderly (screen : Nat) (f : Ix2 → State → ReplyCode × State)
    (h : ∀ n s, Orderly s (f n s).2) (s : State) : Orderly s (match two? screen with
      | some n => settleReply (f n s)
      | none => reply .outOfRange [] s) := by
  split
  · exact settleReply_orderly (h ..)
  · exact reply_orderly ..

/-- A panel command, whatever its code and its parameters. -/
theorem runCommand_orderly (code : Nat) (p : List Byte) (s : State) : Orderly s (runCommand code p s) := by
  unfold runCommand
  split
  · exact reply_orderly ..
  · exact reply_orderly ..
  · exact reply_orderly ..
  · unfold cmdReadPump; split <;> exact reply_orderly ..
  · exact cmdInhibit_orderly ..
  · exact cmdRelease_orderly ..
  · exact settleReply_orderly (takeReset_orderly ..)
  · exact cmdSetOrder_orderly ..
  · exact cmdLoadTotals_orderly ..
  · unfold cmdReadScreen; split <;> exact reply_orderly ..
  · exact rakeCommand_orderly _ takeRakeCycle takeRakeCycle_orderly s
  · exact rakeCommand_orderly _ takeRakeHome takeRakeHome_orderly s
  · exact rakeCommand_orderly _ (takeRakePosition · _) (takeRakePosition_orderly · _) s
  · exact rakeCommand_orderly _ (takeRakeFinish · _) (takeRakeFinish_orderly · _) s
  · exact cmdSense_orderly ..
  · exact cmdReadConditions_orderly ..
  · exact reply_orderly ..
  · exact settleReply_orderly (takeAcknowledge_orderly ..)
  · exact cmdAckAll_orderly ..
  · exact cmdShelve_orderly ..
  · exact cmdUnshelve_orderly ..
  · exact settleReply_orderly (takeRetire_orderly ..)
  · exact ((takeRetireDormant_orderly s).trans (reply_orderly ..)).trans (conclude_orderly _)
  · exact cmdPost_orderly ..
  · exact settleReply_orderly (takeReturn_orderly ..)
  · exact settleReply_orderly (takeSilence_orderly s)
  · exact cmdLoadSettings_orderly ..
  · unfold cmdReadSettings; split <;> exact reply_orderly ..
  · exact cmdCommit_orderly s
  · exact (orderlyStore _ s rfl rfl).trans (reply_orderly ..)
  · exact cmdSetClock_orderly ..
  · exact reply_orderly ..
  · exact reply_orderly ..
  · exact (orderlyPort _ s).trans (reply_orderly ..)
  · unfold cmdSetEnables
    split
    · exact (orderlyPort _ s).trans (reply_orderly ..)
    · exact reply_orderly ..
  · exact portResets_orderly s

/-! Strobes and events -/

theorem dataWrite_orderly (b : Byte) (s : State) : Orderly s (dataWrite b s) := by
  unfold dataWrite
  split
  · exact .refl s
  split
  · unfold takeCode
    dsimp only
    refine (orderlyPort (fun p => { p with protocol := false }) s).trans ?_
    split
    · exact reply_orderly ..
    · exact runCommand_orderly ..
    · exact orderlyPort ..
  · unfold takeParameter
    split
    · exact runCommand_orderly ..
    · exact orderlyPort _ s
  all_goals exact orderlyPort _ s

theorem writeBytes_orderly (bs : List Byte) (s : State) : Orderly s (writeBytes bs s) :=
  orderly_foldl _ (fun s b => dataWrite_orderly b s) bs s

theorem readData_orderly (tc : Bool) (s : State) : Orderly s (readData tc s) := by
  unfold readData
  split
  · exact .refl s
  split
  · exact (orderlyPort _ s).trans (takeStreamByte_orderly ..)
  all_goals exact (orderlyPort _ s).trans (orderlyPort ..)

theorem writeStatus_orderly (b : Byte) (s : State) : Orderly s (writeStatus b s) := by
  unfold writeStatus
  split
  · exact .refl s
  split
  · exact portResets_orderly s
  · exact orderlyPort _ s

theorem windowExpires_orderly (s : State) : Orderly s (windowExpires s) := by
  unfold windowExpires
  split
  · exact endStream_orderly ..
  · exact .refl s

theorem releaseReset_orderly (s : State) : Orderly s (releaseReset s) := by
  unfold releaseReset
  dsimp only
  split
  · exact (orderlyPort _ s).trans (portResets_orderly _)
  · exact orderlyPort _ s

theorem roundMade_orderly (s : State) : Orderly s (if periodComplete s then takePeriodEnd s else s) := by
  split
  · exact takePeriodEnd_orderly _
  · exact .refl s

theorem floatMoved_orderly (f : FloatId) (s : State) :
    Orderly s (if f = .highHigh then followHighHighFloat s else s) := by
  split
  · exact followHighHighFloat_orderly _
  · exact .refl s

theorem selectorLine_orderly (p : Ix6) (l : SelectorLine) (f : Debounced → Debounced) (s : State) :
    Orderly s (s.onPump p (Pump.onLine l f)) := by
  cases l <;> exact orderlyPump p _ s

theorem pumpInput_orderly (p : Ix6) (i : PumpInput) (f : Debounced → Debounced) (s : State) :
    Orderly s (s.onPump p (Pump.onInput i f)) := by
  cases i <;> exact orderlyPump p _ s

theorem rakeInput_orderly (n : Ix2) (i : RakeInput) (f : Debounced → Debounced) (s : State) :
    Orderly s (s.onScreen n (Screen.onInput i f)) := by
  cases i <;> exact orderlyScreen n _ s

theorem powerLine_orderly (l : PowerLine) (f : Debounced → Debounced) (s : State) :
    Orderly s (s.onPower (Power.onLine l f)) := by
  cases l <;> exact orderlyPower _ s rfl

theorem of_due {b c : Bool} (h : (b && c) = true) : c = true := (Bool.and_eq_true_iff.mp h).2

theorem eventBody_orderly {i : Instr} {s u : State} (hi : i ≠ .storeWriteReport true)
    (h : eventBody? i s = some u) (hdue : eventDue i s = true) : Orderly s u := by
  cases i with
  | roundComplete v r => exact some_rel h ((takeRound_orderly v r s).trans (roundMade_orderly _))
  | periodEnd v r => exact some_rel h ((takeRound_orderly v r s).trans (takePeriodEnd_orderly _))
  | floatDebounceExpiry f =>
    exact some_rel h (((orderlyLevel _ s).trans (floatMoved_orderly f _)).trans (wantedAtFloat_orderly ..))
  | separationTimerExpiry w => exact some_rel h (separationExpires_orderly w s)
  | selectorDebounceExpiry p l => exact some_rel h ((selectorLine_orderly p l _ s).trans (deriveSelector_orderly ..))
  | startHistoryAgeOut p => exact some_rel h ((orderlyPump p _ s).trans (reviewStarts_orderly ..))
  | headBlockedDelayExpiry p => exact some_rel h (headDelayExpires_orderly p s)
  | drawdownExpiry => exact some_rel h (endDrawdown_orderly s)
  | pumpInputDebounceExpiry p i => exact some_rel h ((pumpInput_orderly p i _ s).trans (pumpInputMoved_orderly ..))
  | startWindowExpiry p => exact some_rel h (startWindowExpires_orderly p s)
  | minRunExpiry p => exact some_rel h (orderlyPump p _ s)
  | stopWindowExpiry p => exact some_rel h (stopWindowExpires_orderly (of_decide_eq_true (of_due hdue)))
  | runDownExpiry p => exact some_rel h (runDownExpires_orderly (of_decide_eq_true (of_due hdue)))
  | powerLineDebounceExpiry l => exact some_rel h ((powerLine_orderly l _ s).trans (powerLineMoved_orderly ..))
  | staggerTimerExpiry => exact some_rel h (orderlyPower _ s rfl)
  | rakeInputDebounceExpiry n i => exact some_rel h ((rakeInput_orderly n i _ s).trans (rakeInputMoved_orderly ..))
  | pulse n => exact some_rel h (takePulse_orderly n s)
  | gripDwellExpiry n => exact some_rel h (gripExpires_orderly (of_decide_eq_true (of_due hdue)))
  | dischargeDwellExpiry n => exact some_rel h (dischargeExpires_orderly (of_decide_eq_true (of_due hdue)))
  | jamTimerExpiry n =>
    have hjam : timerDue (s.screen n).jamTimer = true := hdue
    exact some_rel h (jamExpires_orderly fun e => by rw [e] at hjam; cases hjam)
  | reverseTimerExpiry n => exact some_rel h (endReverse_orderly (of_decide_eq_true (of_due hdue)))
  | shelfTimerExpiry i => exact some_rel h (unshelveSlot_frame i.val s).orderly
  | heartbeatTimerExpiry => exact some_rel h (heartbeatExpires_orderly s)
  | storeWriteReport b =>
    cases b
    · exact some_rel h (endWrite_orderly (by decide) s)
    · exact absurd rfl hi
  | storeTimeoutExpiry => exact some_rel h (endWrite_orderly (by decide) s)
  | _ => cases h

theorem eventSilent_orderly {i : Instr} {s u : State} (ht : i ≠ .clockTick) (hc : i ≠ .coldStart)
    (hr : i ≠ .resetTimerExpiry) (h : eventSilent? i s = some u) : Orderly s u := by
  cases i with
  | floatInputChange f v => exact some_rel h (orderlyLevel _ s)
  | selectorLineChange p l v => exact some_rel h (selectorLine_orderly ..)
  | runSecondsTick p => exact some_rel h (orderlyPump p _ s)
  | pumpInputChange p i v => exact some_rel h (pumpInput_orderly ..)
  | powerLineChange l v => exact some_rel h (powerLine_orderly ..)
  | rakeInputChange n i v => exact some_rel h (rakeInput_orderly ..)
  | flashPhase => exact some_rel h (orderlyAnn _ s)
  | statusWrite b => exact some_rel h (writeStatus_orderly b s)
  | dataRead tc => exact some_rel h (readData_orderly tc s)
  | invalidCommand c => exact some_rel h (dataWrite_orderly c s)
  | byteWindowExpiry => exact some_rel h (windowExpires_orderly s)
  | resetAssert => exact some_rel h (orderlyPort _ s)
  | resetRelease => exact some_rel h (releaseReset_orderly s)
  | resetTimerExpiry => exact absurd rfl hr
  | coldStart => exact absurd rfl hc
  | clockTick => exact absurd rfl ht
  | frameCheckFail => exact some_rel h (badFrame_orderly s)
  | framingError | interByteTimerExpiry => exact some_rel h (orderlyLink _ s)
  | frameSent | offerTimerExpiry => exact some_rel h ((orderlyLink _ s).trans (transmit_frame _).orderly)
  | statusTimerExpiry => exact some_rel h ((orderlyLink _ s).trans (transmit_frame _).orderly)
  | lossTimerExpiry =>
    exact some_rel h (((orderlyLink _ s).trans (setFlag_frame ..).orderly).trans (transmit_frame _).orderly)
  | byteReceived b => exact some_rel h (receiveByte_orderly b s)
  | _ => cases h

end Sys2Proof.Machine
end


section
/-!
SUPPORT. The commands that Orderly leaves out: the tick, the cold start and a store write's good end; then uptime and the
store image over every command (O10), and the promise of the claim queue over every step.
-/

namespace Sys2Proof.Machine

open Host (Outcome)

/-! The tick -/

theorem timerTick_eq_none {t : Timer} : timerTick t = none ↔ t = none := by
  cases t <;> simp [timerTick]

theorem tick_queueOk {s : State} (h : QueueOk s) : QueueOk (tick s) := by
  refine (queueOk_iff _).mpr ⟨h.once, fun c => ?_⟩
  cases c with
  | pump p =>
    have hf := h.pumpFits p
    show PumpFits _ ((tick s).pump p)
    rw [show (tick s).pump p = (s.pump p).tick from Six.get_map ..]
    exact ⟨hf.queued, hf.auto, hf.claims⟩
  | rake n =>
    have hf := h.rakeFits n
    show RakeFits _ ((tick s).screen n)
    rw [show (tick s).screen n = (s.screen n).tick from Two.get_map ..]
    refine ⟨hf.queued, hf.claims, hf.operation, hf.saved, fun hm => hf.motors ?_⟩
    exact hm.imp_right (Or.imp_right fun hj e => hj (timerTick_eq_none.mpr e))

/-! The cold start -/

theorem coldBlocks_pump (p : Ix6) (s : State) : (coldBlocks s).pump p = coldPump (s.pump p) := Six.get_map ..

theorem coldBlocks_screen (n : Ix2) (s : State) : (coldBlocks s).screen n = coldScreen (s.screen n) := Two.get_map ..

theorem coldBlocks_queueOk (s : State) : QueueOk (coldBlocks s) := by
  refine (queueOk_iff _).mpr ⟨List.nodup_nil, fun c => ?_⟩
  cases c with
  | pump p =>
    show PumpFits _ ((coldBlocks s).pump p)
    rw [coldBlocks_pump]
    refine .at_rest List.not_mem_nil ?_ rfl
    show (match selectorOf (s.pump p).hand.line (s.pump p).auto.line with
      | .off => Seq.off
      | .hand => .hand
      | .auto => if (s.pump p).feedback.line then .runOn else .idle).seeks = false
    split
    · rfl
    · rfl
    · split <;> rfl
  | rake n =>
    show RakeFits _ ((coldBlocks s).screen n)
    rw [coldBlocks_screen]
    exact .at_rest List.not_mem_nil rfl rfl rfl rfl rfl

theorem raisePump_frame (s : State) (p : Ix6) : EdgeFrame s (raisePump s p) := by
  have hif : ∀ (b : Bool) (u v : State), EdgeFrame s u → EdgeFrame u v → EdgeFrame s (if b then v else u) := by
    intro b u v hu hv
    cases b
    · exact hu
    · exact hu.trans hv
  have h1 : EdgeFrame s (if (s.pump p).seq = .runOn then raiseKind .pumpFailStop p.num [byte Route.coldStart.code] s
      else s) := by
    split
    · exact raiseKind_frame ..
    · exact .refl s
  unfold raisePump
  dsimp only
  generalize (if (s.pump p).seq = .runOn then raiseKind .pumpFailStop p.num [byte Route.coldStart.code] s else s) = s1
    at h1 ⊢
  exact hif _ _ _ (hif _ _ _ h1 (raiseKind_frame ..)) (raiseKind_frame ..)

theorem foldl_raisePump_frame (l : List Ix6) (s : State) : EdgeFrame s (l.foldl raisePump s) :=
  foldl_frame EdgeFrame .refl .trans raisePump raisePump_frame l s

theorem raisePower_screens (s : State) : (raisePower s).screens = s.screens := by
  have hsrc := (edges_frame (fun s e => offerEdge e s) (fun s e => offerEdge_frame e s)
    (sourceEdges .mains s.power.source s.power.lines) s).screens
  unfold raisePower
  dsimp only
  split
  · unfold testAck
    split <;> exact hsrc
  · exact hsrc

theorem raisePower_orderly (s : State) : Orderly s (raisePower s) := by
  have hsrc := (edges_frame (fun s e => offerEdge e s) (fun s e => offerEdge_frame e s)
    (sourceEdges .mains s.power.source s.power.lines) s).orderly
  unfold raisePower
  dsimp only
  split
  · exact (hsrc.trans (beginTransfer_orderly _)).trans (testAck_orderly _)
  · exact hsrc

theorem startRake_orderly {s : State} {n : Ix2} (h : (s.screen n).rake.resting = true) :
    Orderly s (startRake s n) := by
  unfold startRake
  split
  · exact lockRake_orderly ..
  · exact beginOp_orderly Operation.noConfusion h

theorem lockRake_only (n : Ix2) (r : RakeReason) (x : List Byte) (s : State) : Only (.rake n) s (lockRake n r x s) := by
  unfold lockRake
  dsimp only
  split
  · exact (only_onScreen ..).trans ((offerEdges_frame ..).only _)
  · exact (only_onScreen ..).trans ((enterLocked_only ..).trans ((offerEdges_frame ..).only _))

theorem startRake_only (s : State) (n : Ix2) : Only (.rake n) s (startRake s n) := by
  unfold startRake
  split
  · exact lockRake_only ..
  · exact beginOp_only ..

theorem startRakes_orderly {s : State} (h : ∀ n, (s.screen n).rake.resting = true) :
    Orderly s (Ix2.all.foldl startRake s) :=
  (startRake_orderly (h .i1)).trans <| startRake_orderly <| by
    rw [(startRake_only s .i1).screens .i2 (by decide)]
    exact h .i2

theorem startLink_orderly (s : State) : Orderly s (startLink s) := by
  unfold startLink
  split
  · exact orderlyLink _ s
  · exact .refl s

theorem raiseSettings_orderly (f : Option (List Byte)) (s : State) : Orderly s (raiseSettings f s) := by
  unfold raiseSettings
  split
  · exact (raiseKind_frame ..).orderly
  · exact .refl s

/-- What a cold start does after the blocks take their values. -/
theorem coldStart_orderly (s : State) : Orderly (coldBlocks s) (coldStart s) := by
  have hpumps := foldl_raisePump_frame Ix6.all (coldBlocks s)
  have hcold : ∀ n, ((coldBlocks s).screen n).rake.resting = true := fun n => by rw [coldBlocks_screen]; rfl
  unfold coldStart
  dsimp only
  generalize Ix6.all.foldl raisePump (coldBlocks s) = s1 at hpumps ⊢
  have hrest : ∀ n, ((raisePower s1).screen n).rake.resting = true := fun n => by
    rw [State.screen, raisePower_screens, hpumps.screens]
    exact hcold n
  exact ((((hpumps.orderly.trans (raisePower_orderly s1)).trans (startRakes_orderly hrest)).trans
    (startLink_orderly _)).trans (raiseSettings_orderly ..)).trans (conclude_orderly _)

theorem coldStart_queueOk (s : State) : QueueOk (coldStart s) := (coldStart_orderly s).queue (coldBlocks_queueOk s)

/-! A store write's good end -/

/-- A store write's end moves no clock, no pump, no screen and no queue. -/
theorem endWrite_parts (e : WriteEnd) (s : State) :
    (endWrite e s).clock = s.clock ∧ (endWrite e s).power = s.power ∧ (endWrite e s).pumps = s.pumps ∧
      (endWrite e s).screens = s.screens := by
  have hans : ∀ c u, (answerCommit c u).clock = u.clock ∧ (answerCommit c u).power = u.power ∧
      (answerCommit c u).pumps = u.pumps ∧ (answerCommit c u).screens = u.screens := by
    intro c u
    unfold answerCommit
    split <;> exact ⟨rfl, rfl, rfl, rfl⟩
  have hframe : ∀ {u v : State}, EdgeFrame u v →
      v.clock = u.clock ∧ v.power = u.power ∧ v.pumps = u.pumps ∧ v.screens = u.screens :=
    fun h => ⟨h.clock, h.power, h.pumps, h.screens⟩
  cases e with
  | complete =>
    have hedges := hframe (offerEdges_frame (goodWriteReturns s.store) ((stopWrite s).onStore fun st =>
      { st with image := st.running, checksumGood := true, settingsFault := false, writeFail := false }))
    obtain ⟨hk, hw, hp, hn⟩ := hans .done (offerEdges (goodWriteReturns s.store) ((stopWrite s).onStore fun st =>
      { st with image := st.running, checksumGood := true, settingsFault := false, writeFail := false }))
    obtain ⟨ek, ew, ep, en⟩ := hedges
    exact ⟨hk.trans ek, hw.trans ew, hp.trans ep, hn.trans en⟩
  | failed | timedOut =>
    obtain ⟨hk, hw, hp, hn⟩ := hans .storeFail (raiseWriteFail _ (stopWrite s))
    obtain ⟨ek, ew, ep, en⟩ := hframe (raiseKind_frame .storeWriteFail 0 _ ((stopWrite s).onStore fun st =>
      { st with writeFail := true }))
    exact ⟨hk.trans ek, hw.trans ew, hp.trans ep, hn.trans en⟩

theorem endWrite_uptime (e : WriteEnd) (s : State) : (endWrite e s).clock.uptime = s.clock.uptime :=
  congrArg Clock.uptime (endWrite_parts e s).1

theorem endWrite_queueOk (e : WriteEnd) {s : State} (h : QueueOk s) : QueueOk (endWrite e s) := by
  obtain ⟨-, hw, hp, hn⟩ := endWrite_parts e s
  exact queueOk_congr (congrArg Power.queue hw) hp hn h

/-! Uptime, the store image and the queue over every command -/

theorem exec_uptime {i : Instr} {s t : State} (h : exec i s = .next t) (ht : i ≠ .clockTick) (hc : i ≠ .coldStart)
    (hr : i ≠ .resetTimerExpiry) : t.clock.uptime = s.clock.uptime := by
  refine exec_rel (R := fun s t => t.clock.uptime = s.clock.uptime) rfl (fun bs => (writeBytes_orderly bs s).uptime)
    (fun k tag p => (arrive_orderly k tag p s).uptime) (fun u hu hdue => ?_)
    (fun u hu _ => (eventSilent_orderly ht hc hr hu).uptime) h
  by_cases hi : i = .storeWriteReport true
  · subst hi
    obtain rfl : endWrite .complete s = u := Option.some.inj hu
    exact (conclude_orderly _).uptime.trans (endWrite_uptime ..)
  · exact ((eventBody_orderly hi hu hdue).trans (conclude_orderly u)).uptime

/-- What no command but a store write's good end moves. -/
def SameImage (s t : State) : Prop := t.store.image = s.store.image ∧ t.store.checksumGood = s.store.checksumGood

theorem Orderly.sameImage {s t : State} (h : Orderly s t) : SameImage s t := ⟨h.image, h.checksum⟩

theorem coldStart_sameImage (s : State) : SameImage s (coldStart s) :=
  ⟨(coldStart_orderly s).image, (coldStart_orderly s).checksum⟩

theorem exec_image {i : Instr} {s t : State} (h : exec i s = .next t) (hi : i ≠ .storeWriteReport true) :
    SameImage s t := by
  refine exec_rel (R := SameImage) ⟨rfl, rfl⟩ (fun bs => (writeBytes_orderly bs s).sameImage)
    (fun k tag p => (arrive_orderly k tag p s).sameImage)
    (fun u hu hdue => ((eventBody_orderly hi hu hdue).trans (conclude_orderly u)).sameImage) (fun u hu _ => ?_) h
  by_cases ht : i = .clockTick
  · subst ht
    exact some_rel hu ⟨rfl, rfl⟩
  by_cases hc : i = .coldStart
  · subst hc
    exact some_rel hu (coldStart_sameImage s)
  by_cases hr : i = .resetTimerExpiry
  · subst hr
    exact some_rel hu (coldStart_sameImage s)
  exact (eventSilent_orderly ht hc hr hu).sameImage

/-- Settles O10. -/
theorem uptimeAndStoreImageMove : Obligations.UptimeAndStoreImageMove :=
  ⟨fun _ _ _ h => exec_uptime h, fun _ _ _ h => exec_image h⟩

theorem exec_queueOk {i : Instr} {s t : State} (h : exec i s = .next t) : QueueOk s → QueueOk t := by
  refine exec_rel (R := fun s t => QueueOk s → QueueOk t) id (fun bs => (writeBytes_orderly bs s).queue)
    (fun k tag p => (arrive_orderly k tag p s).queue) (fun u hu hdue hs => ?_) (fun u hu _ hs => ?_) h
  · by_cases hi : i = .storeWriteReport true
    · subst hi
      obtain rfl : endWrite .complete s = u := Option.some.inj hu
      exact (conclude_orderly _).queue (endWrite_queueOk _ hs)
    · exact ((eventBody_orderly hi hu hdue).trans (conclude_orderly u)).queue hs
  by_cases ht : i = .clockTick
  · subst ht
    exact Option.some.inj hu ▸ tick_queueOk hs
  by_cases hc : i = .coldStart
  · subst hc
    exact Option.some.inj hu ▸ coldStart_queueOk s
  by_cases hr : i = .resetTimerExpiry
  · subst hr
    exact Option.some.inj hu ▸ coldStart_queueOk s
  exact (eventSilent_orderly ht hc hr hu).queue hs

theorem step_queueOk {s t : State} (hs : QueueOk s) (h : step s = .next t) : QueueOk t :=
  step_rel (R := fun s t => QueueOk s → QueueOk t) id
    (fun _ => queueOk_congr rfl rfl rfl) (fun f g x => g (f x)) (fun _ _ => exec_queueOk) h hs

theorem reset_queueOk : QueueOk State.reset := by
  refine (queueOk_iff _).mpr ⟨by decide, fun c => ?_⟩
  cases c with
  | pump p =>
    show PumpFits _ (State.reset.pump p)
    rw [show State.reset.pump p = .cold from Six.get_const ..]
    exact .at_rest (by cases p <;> decide) rfl rfl
  | rake n =>
    show RakeFits _ (State.reset.screen n)
    rw [show State.reset.screen n = .waitingToHome from Two.get_const ..]
    exact ⟨iff_of_true (by cases n <;> decide) (.inl rfl), fun h => absurd rfl h, fun _ => Operation.noConfusion,
      fun h => RakeState.noConfusion h, fun h => absurd h (Screen.motionless rfl rfl rfl)⟩

end Sys2Proof.Machine
end


section
/-!
SUPPORT. The claim queue (R85), the grant (R86, R87), the sheds (R88) and their marks (R89), and the order of the moves of
an event's end (O28).
-/

namespace Sys2Proof.Machine

/-! Joining and leaving the queue -/

theorem joinQueue_of_mem {c : Claimant} {s : State} (h : c ∈ s.power.queue) : joinQueue c s = s :=
  if_pos (List.contains_iff_mem.mpr h)

theorem joinQueue_of_not_mem {c : Claimant} {s : State} (h : c ∉ s.power.queue) :
    joinQueue c s = s.onPower fun w => { w with queue := queueWith s c w.queue } :=
  if_neg fun k => h (List.contains_iff_mem.mp k)

/-- A claimant that is no blocked rake joins at the tail. -/
theorem joinQueue_tail {c : Claimant} {s : State} (h : c ∉ s.power.queue) (hb : isBlockedRake s c = false) :
    (joinQueue c s).power.queue = s.power.queue ++ [c] := by
  rw [joinQueue_of_not_mem h]
  show queueWith s c s.power.queue = _
  rw [queueWith, if_neg (by rw [hb]; decide)]

/-- A blocked rake joins behind the blocked rakes at the front and ahead of the rest. -/
theorem joinQueue_blocked {c : Claimant} {s : State} (h : c ∉ s.power.queue) (hb : isBlockedRake s c = true) :
    ∃ a b, s.power.queue = a ++ b ∧ (joinQueue c s).power.queue = a ++ c :: b ∧
      (∀ x ∈ a, isBlockedRake s x = true) ∧ ∀ x, b.head? = some x → isBlockedRake s x = false := by
  refine ⟨s.power.queue.takeWhile (isBlockedRake s), s.power.queue.dropWhile (isBlockedRake s),
    (List.takeWhile_append_dropWhile ..).symm, ?_, fun x hx => of_mem_takeWhile hx, fun x hx => ?_⟩
  · rw [joinQueue_of_not_mem h]
    show queueWith s c s.power.queue = _
    rw [queueWith, if_pos hb]
  · have hnot := List.head?_dropWhile_not (isBlockedRake s) s.power.queue
    rw [hx] at hnot
    exact hnot

theorem joinQueue_onPower (c : Claimant) (s : State) :
    joinQueue c s = s.onPower fun w => { w with queue := (joinQueue c s).power.queue } := by
  by_cases h : c ∈ s.power.queue
  · rw [joinQueue_of_mem h]; rfl
  · rw [joinQueue_of_not_mem h]; rfl

/-- The test of BLOCKED on the differential just formed (R85, R97). -/
theorem testBlocked_eq (n : Ix2) (s : State) :
    testBlocked n s =
      let b := blockedAfter s.running n (s.screen n)
      let u := s.onScreen n fun a => { a with blocked := b }
      if b = true ∧ (s.screen n).blocked = false ∧ .rake n ∈ s.power.queue
        then joinQueue (.rake n) (leaveQueue (.rake n) u) else u := by
  unfold testBlocked
  dsimp only
  generalize blockedAfter s.running n (s.screen n) = b
  by_cases hb : b = true ∧ (s.screen n).blocked = false
  · rw [if_pos (show (b && !(s.screen n).blocked) = true by rw [hb.1, hb.2]; rfl)]
    by_cases hq : Claimant.rake n ∈ s.power.queue
    · rw [if_pos ⟨hb.1, hb.2, hq⟩]
      exact if_pos (List.contains_iff_mem.mpr hq)
    · rw [if_neg fun h => hq h.2.2]
      exact if_neg fun h => hq (List.contains_iff_mem.mp h)
  · rw [if_neg (show ¬(b && !(s.screen n).blocked) = true by simpa using hb), if_neg fun h => hb ⟨h.1, h.2.1⟩]

/-! What may be granted (R86, R87) -/

theorem external_iff (q : Pump) :
    q.external = true ↔ (q.seq = .hand ∧ q.feedback.state = true) ∨ q.seq = .runOn := by
  simp [Pump.external]

theorem externalLoad_sum (s : State) :
    externalLoad s = (Ix6.all.map fun p =>
      if ((s.pump p).seq = .hand ∧ (s.pump p).feedback.state = true) ∨ (s.pump p).seq = .runOn
        then s.running.pumpUnits p else 0).sum := by
  rw [externalLoad_eq]
  simp only [external_iff]

theorem gateOpen_iff (s : State) : gateOpen s = true ↔ ∀ q, (s.pump q).seq ≠ .starting := by
  show (Ix6.all.map s.pumps.get).all (fun p => p.seq ≠ .starting) = true ↔ _
  simp only [List.all_map, List.all_eq_true, Function.comp_apply, decide_eq_true_eq]
  exact ⟨fun h q => h q (by cases q <;> decide), fun h q _ => h q⟩

theorem grantable_pump_iff (s : State) (p : Ix6) : grantable s (.pump p) = true ↔
    (s.running.pumpUnits p : Int) ≤ free s ∧ (∀ q, (s.pump q).seq ≠ .starting) ∧ s.power.stagger = none := by
  show (_ && gateOpen s && _) = true ↔ _
  rw [Bool.and_eq_true, Bool.and_eq_true, decide_eq_true_eq, gateOpen_iff, Option.isNone_iff_eq_none, and_assoc]

/-! The order of the moves (assumption 12) -/

theorem find?_first {l a b : List Ix6} {p : Ix6} {f : Ix6 → Bool} {P : Ix6 → Prop} (hf : ∀ x, f x = true ↔ P x)
    (hl : l = a ++ p :: b) (ha : ∀ x ∈ a, ¬P x) (hp : P p) : l.find? f = some p :=
  List.find?_eq_some_iff_append.mpr
    ⟨(hf p).mpr hp, a, b, hl, fun x hx => by rw [Bool.not_eq_true', ← Bool.not_eq_true, hf]; exact ha x hx⟩

theorem find?_absent {l : List Ix6} {f : Ix6 → Bool} {P : Ix6 → Prop} (hf : ∀ x, f x = true ↔ P x)
    (h : ∀ x ∈ l, ¬P x) : l.find? f = none :=
  List.find?_eq_none.mpr fun x hx => by rw [hf]; exact h x hx

/-- A RUNNING pump that is not called and has its minimum run behind it (R66). -/
theorem withdrawn_iff (q : Pump) : q.withdrawn = true ↔ q.seq = .running ∧ q.called = false ∧ q.minRun = none := by
  simp [Pump.withdrawn, and_assoc]

/-- A pump that leaves the queue for want of a call (R62). -/
def Pump.uncalled (q : Pump) : Bool := q.seq = .queued && !q.called

/-- A pump that joins the queue on its call (R62). -/
def Pump.asks (q : Pump) : Bool := q.seq = .idle && q.called

theorem uncalled_iff (q : Pump) : q.uncalled = true ↔ q.seq = .queued ∧ q.called = false := by simp [Pump.uncalled]

theorem asks_iff (q : Pump) : q.asks = true ↔ q.seq = .idle ∧ q.called = true := by simp [Pump.asks]

theorem nextMove_sheds {s : State} (hf : free s < 0) (hc : claimSum s ≠ 0) : nextMove s = some shedAll :=
  if_pos (by simp [hf, hc])

/-- Where nothing is shed. -/
theorem nextMove_calm {s : State} (h : 0 ≤ free s ∨ claimSum s = 0) : nextMove s =
    match s.duty.ladder.find? (fun p => (s.pump p).withdrawn) with
    | some p => some (stopPump .callWithdrawn p)
    | none =>
      match s.duty.ladder.find? (fun p => (s.pump p).uncalled) with
      | some p => some (unqueuePump p)
      | none =>
        match s.duty.ladder.find? (fun p => (s.pump p).asks) with
        | some p => some (queuePump p)
        | none =>
          match s.power.queue.head?.filter (grantable s) with
          | some c => some (grant c)
          | none => (Ix2.all.find? fun n => (s.screen n).untested).map testIdle :=
  if_neg (by
    rw [Bool.and_eq_true, decide_eq_true_eq, decide_eq_true_eq]
    rintro ⟨hf, hc⟩
    exact h.elim (fun k => absurd hf (Int.not_lt.mpr k)) hc)

/-- The grant or the test of an idle rake, where no pump stops, leaves or joins. -/
theorem nextMove_quiet {s : State} (h : 0 ≤ free s ∨ claimSum s = 0)
    (hw : s.duty.ladder.find? (fun p => (s.pump p).withdrawn) = none)
    (hu : s.duty.ladder.find? (fun p => (s.pump p).uncalled) = none)
    (ha : s.duty.ladder.find? (fun p => (s.pump p).asks) = none) : nextMove s =
    match s.power.queue.head?.filter (grantable s) with
    | some c => some (grant c)
    | none => (Ix2.all.find? fun n => (s.screen n).untested).map testIdle := by
  rw [nextMove_calm h, hw, hu, ha]

/-- A pump leaves the queue for IDLE, with the return of POWER-SHED where its mark was the last (R62, R89). -/
theorem unqueuePump_eq (p : Ix6) : unqueuePump p = fun t =>
    clearShed (.pump p) (leaveQueue (.pump p) (t.onPump p fun q => { q with seq := .idle })) := rfl

theorem queuePump_eq (p : Ix6) : queuePump p = fun t =>
    joinQueue (.pump p) (t.onPump p fun q => { q with seq := .queued }) := rfl

/-! Shed marks (R89) -/

theorem anyShed_iff (s : State) :
    anyShed s = true ↔ (∃ p, (s.pump p).shedMark = true) ∨ ∃ n, (s.screen n).shedMark = true := by
  show ((Ix6.all.map s.pumps.get).any (·.shedMark) || (Ix2.all.map s.screens.get).any (·.shedMark)) = true ↔ _
  simp only [Bool.or_eq_true, List.any_map, List.any_eq_true, Function.comp_apply]
  refine or_congr ⟨fun ⟨p, _, h⟩ => ⟨p, h⟩, fun ⟨p, h⟩ => ⟨p, by cases p <;> decide, h⟩⟩
    ⟨fun ⟨n, _, h⟩ => ⟨n, h⟩, fun ⟨n, h⟩ => ⟨n, by cases n <;> decide, h⟩⟩

theorem setMark_pumpMark {c : Claimant} {s : State} {p : Ix6} (h : ((setMark c false s).pump p).shedMark = true) :
    (s.pump p).shedMark = true := by
  cases c with
  | pump q =>
    rw [setMark, State.onPump_pump] at h
    split at h
    · cases h
    · exact h
  | rake n => exact h

theorem setMark_screenMark {c : Claimant} {s : State} {n : Ix2} (h : ((setMark c false s).screen n).shedMark = true) :
    (s.screen n).shedMark = true := by
  cases c with
  | pump q => exact h
  | rake m =>
    rw [setMark, State.onScreen_screen] at h
    split at h
    · cases h
    · exact h

/-- A mark cleared sets none. -/
theorem anyShed_of_clear {c : Claimant} {s : State} (h : anyShed (setMark c false s) = true) : anyShed s = true := by
  rw [anyShed_iff] at h ⊢
  exact h.imp (fun ⟨p, hp⟩ => ⟨p, setMark_pumpMark hp⟩) fun ⟨n, hn⟩ => ⟨n, setMark_screenMark hn⟩

theorem markShed_again {c : Claimant} {s : State} (short : Nat) (h : anyShed s = true) :
    markShed c short s = setMark c true s := if_pos h

theorem markShed_first {c : Claimant} {s : State} (short : Nat) (h : ¬anyShed s = true) :
    markShed c short s = raise ⟨.powerShed, 0⟩ .minor [byte short] (setMark c true s) := if_neg h

theorem shedEnds_last {c : Claimant} {s : State} (h : anyShed s = true) (hn : ¬anyShed (setMark c false s) = true) :
    shedEnds c s = [⟨.powerShed, 0, none⟩] := by
  unfold shedEnds
  rw [h, Bool.eq_false_iff.mpr hn, causeEdge_fall]

theorem shedEnds_other {c : Claimant} {s : State} (h : anyShed s = true → anyShed (setMark c false s) = true) :
    shedEnds c s = [] := by
  have hsame : anyShed (setMark c false s) = anyShed s := Bool.eq_iff_iff.mpr ⟨anyShed_of_clear, h⟩
  unfold shedEnds
  rw [hsame, causeEdge_same]

/-! Sheds (R88) -/

theorem shed_only (short : Nat) (c : Claimant) (s : State) : Only c s (shed short c s) := by
  have h : Only c s (setFlag .power (markShed c short s)) :=
    (markShed_only ..).trans (only_of_same _ rfl rfl rfl rfl rfl)
  unfold shed
  cases c
  · exact h.trans (stopPump_only ..)
  · exact h.trans (pauseRake_only ..)

theorem Only.claimOf {c d : Claimant} {s t : State} (h : Only c s t) (hd : d ≠ c) :
    Machine.claimOf t d = Machine.claimOf s d := by
  cases d with
  | pump p => exact congrArg Pump.claim (h.pumps p hd)
  | rake n => exact congrArg Screen.claim (h.screens n hd)

/-- A claim given up leaves the sum. -/
theorem claimSum_release {c : Claimant} {s t : State} (hc : claimOf t c = none)
    (hd : ∀ d, d ≠ c → claimOf t d = claimOf s d) : claimSum t + (claimOf s c).getD 0 = claimSum s := by
  have hp : ∀ p, .pump p ≠ c → (t.pump p).claim = (s.pump p).claim := fun p => hd (.pump p)
  have hn : ∀ n, .rake n ≠ c → (t.screen n).claim = (s.screen n).claim := fun n => hd (.rake n)
  rw [claimSum_eq, claimSum_eq]
  simp only [Ix6.all, Ix2.all, List.map_cons, List.map_nil, List.sum_cons, List.sum_nil]
  cases c with
  | pump p =>
    rw [hn .i1 Claimant.noConfusion, hn .i2 Claimant.noConfusion]
    have hc' : (t.pump p).claim = none := hc
    show _ + (s.pump p).claim.getD 0 = _
    cases p <;>
      simp only [ne_eq, Claimant.pump.injEq, reduceCtorEq, not_false_eq_true, hp, hc', Option.getD_none] <;> omega
  | rake n =>
    have hp' : ∀ p, (t.pump p).claim = (s.pump p).claim := fun p => hp p Claimant.noConfusion
    have hc' : (t.screen n).claim = none := hc
    show _ + (s.screen n).claim.getD 0 = _
    cases n <;>
      simp only [ne_eq, Claimant.rake.injEq, reduceCtorEq, not_false_eq_true, hp', hn, hc', Option.getD_none] <;> omega

/-- Every pump that holds a claim is STARTING or RUNNING. -/
def ClaimsOnDuty (s : State) : Prop := ∀ p, (s.pump p).claim ≠ none → (s.pump p).seq = .starting ∨ (s.pump p).seq = .running

theorem external_of_onDuty {q : Pump} (h : q.seq = .starting ∨ q.seq = .running) : q.external = false := by
  rcases h with h | h <;> simp [Pump.external, h]

/-- A shed moves no pump into or out of drawing without a grant. -/
theorem shed_external {short : Nat} {c : Claimant} {s : State} (hd : ClaimsOnDuty s) (hc : claimOf s c ≠ none) (q : Ix6) :
    ((shed short c s).pump q).external = (s.pump q).external := by
  cases c with
  | rake n => rw [(shed_only short (.rake n) s).pumps q Claimant.noConfusion]
  | pump p =>
    by_cases hq : q = p
    · subst hq
      rw [external_of_onDuty (hd q hc)]
      show ((stopPump .shed q _).pump q).external = false
      rw [stopPump_pump, if_pos rfl]
      rfl
    · rw [(shed_only short (.pump p) s).pumps q (fun h => hq (Claimant.pump.inj h))]

/-- A shed gives its units back to free. -/
theorem shed_free {short : Nat} {c : Claimant} {s : State} (hd : ClaimsOnDuty s) (hc : claimOf s c ≠ none) :
    free (shed short c s) = free s + ((claimOf s c).getD 0 : Int) := by
  have hframe : PlantFrame s (shed short c s) := shed_frame ..
  have hext : externalLoad (shed short c s) = externalLoad s := by
    simp only [externalLoad_eq, shed_external hd hc, hframe.running]
  have hsum := claimSum_release (shed_claim short c s) fun d hne => (shed_only short c s).claimOf hne
  unfold free available
  rw [hext, hframe.budget]
  omega

theorem shed_onDuty {short : Nat} {c : Claimant} {s : State} (hd : ClaimsOnDuty s) : ClaimsOnDuty (shed short c s) := by
  intro q hq
  by_cases h : .pump q = c
  · subst h
    exact absurd (shed_claim short (.pump q) s) hq
  · rw [(shed_only short c s).pumps q h] at hq ⊢
    exact hd q hq

/-- One claimant's turn while free is negative. -/
theorem shedNext_short {short : Nat} {s : State} (hs : free s < 0) (c : Claimant) :
    shedNext short s c = if claimOf s c ≠ none then shed short c s else s := by
  unfold shedNext
  cases claimOf s c <;> simp [hs]

/-- What one claimant's turn does while free is negative: its claim is given up and every other stands. -/
theorem shedNext_turn {short : Nat} {s : State} (hd : ClaimsOnDuty s) (hs : free s < 0) (c : Claimant) :
    ClaimsOnDuty (shedNext short s c) ∧ free (shedNext short s c) = free s + ((claimOf s c).getD 0 : Int) ∧
      claimOf (shedNext short s c) c = none ∧ ∀ d, d ≠ c → claimOf (shedNext short s c) d = claimOf s d := by
  rw [shedNext_short hs]
  by_cases hc : claimOf s c = none
  · rw [if_neg (Classical.not_not.mpr hc)]
    exact ⟨hd, by rw [hc]; exact (Int.add_zero _).symm, hc, fun _ _ => rfl⟩
  · rw [if_pos hc]
    exact ⟨shed_onDuty hd, shed_free hd hc, shed_claim .., fun d hne => (shed_only short c s).claimOf hne⟩

theorem shedNext_full {short : Nat} {s : State} (hs : 0 ≤ free s) (c : Claimant) : shedNext short s c = s :=
  if_neg (by simp [Int.not_lt.mpr hs])

theorem foldl_shedNext_full {short : Nat} {s : State} (hs : 0 ≤ free s) (l : List Claimant) :
    l.foldl (shedNext short) s = s := by
  induction l with
  | nil => rfl
  | cons c l ih => rw [List.foldl_cons, shedNext_full hs, ih]

theorem shedNext_only (short : Nat) (s : State) (c : Claimant) : Only c s (shedNext short s c) := by
  unfold shedNext
  split
  · exact shed_only ..
  · exact .refl c s

/-- The turns of others leave a claimant's claim. -/
theorem foldl_shedNext_claimOf {short : Nat} {d : Claimant} {l : List Claimant} (hd : d ∉ l) (s : State) :
    claimOf (l.foldl (shedNext short) s) d = claimOf s d := by
  induction l generalizing s with
  | nil => rfl
  | cons c l ih =>
    obtain ⟨hc, hl⟩ := not_or.mp fun h => hd (List.mem_cons.mpr h)
    rw [List.foldl_cons, ih hl, (shedNext_only short s c).claimOf hc]

/-- The units that some claimants hold. -/
def heldBy (s : State) (l : List Claimant) : Nat := (l.map fun c => (claimOf s c).getD 0).sum

theorem heldBy_cons (s : State) (c : Claimant) (l : List Claimant) :
    heldBy s (c :: l) = (claimOf s c).getD 0 + heldBy s l := by simp [heldBy]

theorem heldBy_congr {s t : State} {l : List Claimant} (h : ∀ c ∈ l, claimOf t c = claimOf s c) :
    heldBy t l = heldBy s l := by
  unfold heldBy
  rw [List.map_congr_left fun c hc => by rw [h c hc]]

/-- What the turns of some claimants do: the first k of them give up their claims, each while free is still negative, and
the rest keep theirs. -/
structure ShedsFirst (l : List Claimant) (s t : State) (k : Nat) : Prop where
  bound : k ≤ l.length
  shed : ∀ c ∈ l.take k, claimOf t c = none
  kept : ∀ c ∈ l.drop k, claimOf t c = claimOf s c
  needed : k ≠ 0 → free s + (heldBy s (l.take (k - 1)) : Int) < 0
  freed : free t = free s + (heldBy s (l.take k) : Int)
  ends : k < l.length → 0 ≤ free t

theorem ShedsFirst.nothing {l : List Claimant} {s : State} (h : l = [] ∨ 0 ≤ free s) : ShedsFirst l s s 0 where
  bound := Nat.zero_le _
  shed c hc := absurd hc (by simp)
  kept _ _ := rfl
  needed h := absurd rfl h
  freed := (Int.add_zero _).symm
  ends hk := h.resolve_left fun e => by simp [e] at hk

theorem foldl_shedNext_first (short : Nat) {l : List Claimant} (hl : l.Nodup) {s : State} (hd : ClaimsOnDuty s) :
    ∃ k, ShedsFirst l s (l.foldl (shedNext short) s) k := by
  induction l generalizing s with
  | nil => exact ⟨0, .nothing (.inl rfl)⟩
  | cons c l ih =>
    by_cases hs : 0 ≤ free s
    · rw [foldl_shedNext_full hs]
      exact ⟨0, .nothing (.inr hs)⟩
    have hneg := Int.not_le.mp hs
    obtain ⟨hc, hnodup⟩ := List.nodup_cons.mp hl
    obtain ⟨hduty, hfree, hnone, hother⟩ := shedNext_turn (short := short) hd hneg c
    have hsame : ∀ d ∈ l, claimOf (shedNext short s c) d = claimOf s d := fun d hdl =>
      hother d fun e => hc (e ▸ hdl)
    have hheld : ∀ k, heldBy (shedNext short s c) (l.take k) = heldBy s (l.take k) := fun k =>
      heldBy_congr fun d hdk => hsame d (List.mem_of_mem_take hdk)
    obtain ⟨k, h⟩ := ih hnodup hduty
    rw [List.foldl_cons]
    refine ⟨k + 1, Nat.succ_le_succ h.bound, fun d hdk => ?_, fun d hdk => ?_, fun _ => ?_, ?_,
      fun hk => h.ends (Nat.lt_of_succ_lt_succ hk)⟩
    · obtain rfl | hdl := List.mem_cons.mp hdk
      · rw [foldl_shedNext_claimOf hc, hnone]
      · exact h.shed d hdl
    · rw [h.kept d hdk, hsame d (List.mem_of_mem_drop hdk)]
    · cases k with
      | zero => simpa [heldBy] using hneg
      | succ k =>
        have hn := h.needed (Nat.succ_ne_zero k)
        rw [hheld, hfree, Nat.add_sub_cancel] at hn
        rw [Nat.add_sub_cancel, List.take_succ_cons, heldBy_cons]
        push_cast
        omega
    · rw [h.freed, hfree, hheld, List.take_succ_cons, heldBy_cons]
      push_cast
      omega

theorem shedOrder_nodup {s : State} (h : LadderOk s.duty.ladder) : (shedOrder s).Nodup := by
  have hrakes : ∀ f : Ix2 → Bool, ((([.i2, .i1] : List Ix2).filter f).map Claimant.rake).Nodup := fun f =>
    nodup_map (fun _ _ e => Claimant.rake.inj e) (nodup_filter f (by decide))
  have hpumps : (s.duty.ladder.reverse.map Claimant.pump).Nodup :=
    nodup_map (fun _ _ e => Claimant.pump.inj e) ((List.reverse_perm _).nodup_iff.mpr h.nodup)
  unfold shedOrder
  simp only [List.nodup_append, hrakes, hpumps, List.mem_append, List.mem_map, List.mem_filter]
  refine ⟨⟨trivial, trivial, ?_⟩, trivial, ?_⟩
  · rintro _ ⟨n, -, rfl⟩ _ ⟨p, -, rfl⟩ e
    exact Claimant.noConfusion e
  · rintro _ (⟨n, ⟨-, hn⟩, rfl⟩ | ⟨p, -, rfl⟩) _ ⟨m, ⟨-, hm⟩, rfl⟩ e
    · rw [Claimant.rake.inj e, hm] at hn
      cases hn
    · exact Claimant.noConfusion e

/-- The claims are shed in their order, as many as free needs (R88). -/
theorem shedAll_first {s : State} (hd : ClaimsOnDuty s) (hl : LadderOk s.duty.ladder) :
    ∃ k, ShedsFirst (shedOrder s) s (shedAll s) k := foldl_shedNext_first _ (shedOrder_nodup hl) hd

theorem shedOrder_eq (s : State) : shedOrder s =
    ((([.i2, .i1] : List Ix2).filter fun n => (s.screen n).blocked = false).map Claimant.rake) ++
      s.duty.ladder.reverse.map .pump ++
      ((([.i2, .i1] : List Ix2).filter fun n => (s.screen n).blocked = true).map .rake) := by
  have hfree : (fun n => !(s.screen n).blocked) = fun n => decide ((s.screen n).blocked = false) := by
    funext n
    cases (s.screen n).blocked <;> rfl
  have hblocked : (fun n => (s.screen n).blocked) = fun n => decide ((s.screen n).blocked = true) := by
    funext n
    cases (s.screen n).blocked <;> rfl
  unfold shedOrder
  dsimp only
  rw [hfree, hblocked]

theorem shedNext_eq (short : Nat) (u : State) (c : Claimant) :
    shedNext short u c = if free u < 0 ∧ claimOf u c ≠ none then shed short c u else u := by
  unfold shedNext
  simp only [Bool.and_eq_true, decide_eq_true_eq, Option.isSome_iff_ne_none]

/-! The clauses of O28 -/

theorem setMark_eq (c : Claimant) (v : Bool) (s : State) : setMark c v s =
    match c with
    | .pump p => s.onPump p fun q => { q with shedMark := v }
    | .rake n => s.onScreen n fun q => { q with shedMark := v } := by cases c <;> rfl

theorem nextMove_idle {s : State} (h : s.power.queue.head?.filter (grantable s) = none)
    (hq : nextMove s = match s.power.queue.head?.filter (grantable s) with
      | some c => some (grant c)
      | none => (Ix2.all.find? fun n => (s.screen n).untested).map testIdle) :
    ((s.screen .i1).untested = true → nextMove s = some (testIdle .i1)) ∧
    ((s.screen .i1).untested = false → (s.screen .i2).untested = true → nextMove s = some (testIdle .i2)) ∧
    ((s.screen .i1).untested = false → (s.screen .i2).untested = false → nextMove s = none) := by
  rw [hq, h]
  refine ⟨fun h1 => ?_, fun h1 h2 => ?_, fun h1 h2 => ?_⟩
  · simp [Ix2.all, h1]
  · simp [Ix2.all, h1, h2]
  · simp [Ix2.all, h1, h2]

/-- Settles O28. The sheds are a walk along the shed order, the queue's promise is that of `step_queueOk`. -/
theorem claimQueueOrder : Obligations.ClaimQueueOrder := by
  refine ⟨fun s c => ⟨joinQueue_of_mem, joinQueue_tail, joinQueue_blocked,
      fun h => ⟨joinQueue_nodup h, not_mem_leaveQueue c s⟩, rfl, joinQueue_onPower c s, rfl, fun _ => rfl, fun _ => rfl⟩,
    fun s n => testBlocked_eq n s, fun s => ?_, fun s a b p => ?_, fun s => ?_, fun s short c => ?_, reset_queueOk,
    fun s t => step_queueOk⟩
  · refine ⟨?_, ?_, ?_, fun n => decide_eq_true_iff, fun p => grantable_pump_iff s p, fun _ => rfl, fun _ => rfl⟩
    · rw [externalLoad_sum]
      simp [Ix6.all, Nat.add_assoc]
    · rw [claimSum_eq]
      simp [Ix6.all, Ix2.all, Nat.add_assoc]
    · rfl
  · refine ⟨nextMove_sheds, fun hcalm => ⟨fun ⟨hl, ha, hp⟩ => ?_, fun hstops => ?_⟩⟩
    · rw [nextMove_calm hcalm, find?_first (fun x => withdrawn_iff (s.pump x)) hl ha hp]
    have hw := find?_absent (fun x => withdrawn_iff (s.pump x)) hstops
    refine ⟨fun ⟨hl, ha, hp⟩ => ?_, fun hleaves => ?_⟩
    · rw [nextMove_calm hcalm, hw, find?_first (fun x => uncalled_iff (s.pump x)) hl ha hp, ← unqueuePump_eq]
    have hu := find?_absent (fun x => uncalled_iff (s.pump x)) hleaves
    refine ⟨fun ⟨hl, ha, hp⟩ => ?_, fun hjoins => ?_⟩
    · rw [nextMove_calm hcalm, hw, hu, find?_first (fun x => asks_iff (s.pump x)) hl ha hp, ← queuePump_eq]
    have hquiet := nextMove_quiet hcalm hw hu (find?_absent (fun x => asks_iff (s.pump x)) hjoins)
    refine ⟨fun c rest hq hg => ?_, fun hnone => nextMove_idle ?_ hquiet⟩
    · rw [hquiet, hq, List.head?_cons, Option.filter_some, if_pos hg]
    · exact Option.filter_eq_none_iff.mpr fun c hc => by rw [hnone c hc]; decide
  · intro t rakes order held hduty hladder
    have horder : order = shedOrder s := (shedOrder_eq s).symm
    obtain ⟨k, h⟩ := shedAll_first hduty hladder
    rw [horder]
    refine ⟨?_, k, h.bound, h.shed, h.kept, h.needed, h.freed, h.ends⟩
    show shedAll s = _
    unfold shedAll
    congr 1
    funext u c
    exact shedNext_eq ..
  · intro marked any
    have hmarked : ∀ v, marked v = setMark c v s := fun v => (setMark_eq c v s).symm
    have hany : ∀ t, any t ↔ anyShed t = true := fun t => (anyShed_iff t).symm
    simp only [hmarked, hany]
    refine ⟨markShed_again short, markShed_first short, fun h hn => ?_, fun h => ?_, fun p hp => hp ▸ rfl,
      fun n hn => hn ▸ rfl⟩
    · have he := shedEnds_last h hn
      refine ⟨?_, he⟩
      rw [clearShed, he, offerEdges_one]
      rfl
    · have he := shedEnds_other h
      exact ⟨by rw [clearShed, he, offerEdges_nil], he⟩

end Sys2Proof.Machine
end


section
/-!
SUPPORT. When an event is due and what follows from it, and the first statements that rest on it: the link's other timers
(O52), the check register (O56), the events not due (O60) and the reset state (O2).
-/

namespace Sys2Proof.Machine

open Host (Outcome)

/-! Guards -/

/-- An event that is not due changes nothing (assumption 2). -/
theorem exec_notDue {i : Instr} {s : State} (h : eventDue i s = false) : exec i s = .next s := by
  cases i
  case roundComplete | periodEnd | floatDebounceExpiry | separationTimerExpiry | selectorDebounceExpiry |
      startHistoryAgeOut | headBlockedDelayExpiry | drawdownExpiry | runSecondsTick | pumpInputDebounceExpiry |
      startWindowExpiry | minRunExpiry | stopWindowExpiry | runDownExpiry | powerLineDebounceExpiry |
      staggerTimerExpiry | rakeInputDebounceExpiry | pulse | gripDwellExpiry | dischargeDwellExpiry | jamTimerExpiry |
      reverseTimerExpiry | shelfTimerExpiry | invalidCommand | byteWindowExpiry | resetAssert | resetRelease |
      resetTimerExpiry | frameCheckFail | framingError | interByteTimerExpiry | frameSent | offerTimerExpiry |
      heartbeatTimerExpiry | statusTimerExpiry | lossTimerExpiry | storeWriteReport | storeTimeoutExpiry =>
    exact congrArg Outcome.next (if_neg (Bool.eq_false_iff.mp h))
  all_goals cases h

/-- An event that is due, and that the end of an event follows. -/
theorem exec_due {i : Instr} {s u : State} (hu : eventBody? i s = some u) (h : eventDue i s = true) :
    exec i s = .next (conclude u) := by
  cases i
  case roundComplete | periodEnd | floatDebounceExpiry | separationTimerExpiry | selectorDebounceExpiry |
      startHistoryAgeOut | headBlockedDelayExpiry | drawdownExpiry | pumpInputDebounceExpiry |
      startWindowExpiry | minRunExpiry | stopWindowExpiry | runDownExpiry | powerLineDebounceExpiry |
      staggerTimerExpiry | rakeInputDebounceExpiry | pulse | gripDwellExpiry | dischargeDwellExpiry | jamTimerExpiry |
      reverseTimerExpiry | shelfTimerExpiry | heartbeatTimerExpiry | storeWriteReport | storeTimeoutExpiry =>
    exact Option.some.inj hu ▸ congrArg Outcome.next (if_pos h)
  all_goals cases hu

/-- An event that is due, and that no end of an event follows. -/
theorem exec_silentDue {i : Instr} {s u : State} (hu : eventSilent? i s = some u) (h : eventDue i s = true) :
    exec i s = .next u := by
  cases i
  case runSecondsTick | invalidCommand | byteWindowExpiry | resetAssert | resetRelease | resetTimerExpiry |
      frameCheckFail | framingError | interByteTimerExpiry | frameSent | offerTimerExpiry | statusTimerExpiry |
      lossTimerExpiry =>
    exact Option.some.inj hu ▸ congrArg Outcome.next (if_pos h)
  case floatInputChange | selectorLineChange | pumpInputChange | powerLineChange | rakeInputChange | flashPhase |
      statusWrite | dataRead | byteReceived | coldStart | clockTick =>
    exact Option.some.inj hu ▸ rfl
  all_goals cases hu

theorem timerDue_on {t : Timer} (h : t = some 0) : timerDue t = true := by rw [h]; rfl

theorem timerDue_off {t : Timer} (h : t ≠ some 0) : timerDue t = false := beq_false_of_ne h

theorem timerDue_and_on {t : Timer} {b : Bool} (h : t = some 0) (hb : b = true) : (timerDue t && b) = true := by
  rw [timerDue_on h, hb]; rfl

theorem timerDue_and_off {t : Timer} {b : Bool} (h : t ≠ some 0) : (timerDue t && b) = false := by
  rw [timerDue_off h]; rfl

/-! The link's other timers -/

theorem statusExpires_online {s : State} (h : s.link.state = .online) : statusExpires s = s.onLink fun l => { l with
    statusOwed := true, statusTimer := some (100 * s.link.period.getD 0) } := by
  simp [statusExpires, State.onLink, h, seconds]

theorem statusExpires_quiet {s : State} (h : s.link.state = .quiet) : statusExpires s = s.onLink fun l => { l with
    statusOwed := true, statusTimer := some (100 * (6 * s.link.period.getD 0)) } := by
  simp [statusExpires, State.onLink, h, seconds]

/-- Settles O52. -/
theorem linkTimers : Obligations.LinkTimers := by
  refine fun s => ⟨fun ht hs => ?_, fun ht hs => ?_, fun ht hs => ?_, fun ht hs => ?_, fun h => ?_⟩
  · exact exec_silentDue rfl (timerDue_and_on ht (decide_eq_true hs))
  · rw [← statusExpires_online hs]
    exact exec_silentDue rfl (timerDue_and_on ht (by rw [hs]; rfl))
  · rw [← statusExpires_quiet hs]
    exact exec_silentDue rfl (timerDue_and_on ht (by rw [hs]; rfl))
  · exact exec_silentDue rfl (timerDue_and_on ht (decide_eq_true hs))
  · exact exec_silentDue rfl (Option.isSome_iff_ne_none.mpr h)

/-! The check register -/

theorem crc_append (bs : List Byte) (b : Byte) : crc (bs ++ [b]) = crcByte (crc bs) b := List.foldl_append

/-- Settles O56. -/
theorem checkRegister : Obligations.CheckRegister := ⟨rfl, by decide +kernel, crc_append⟩

/-! Events not due -/

theorem oldestAged_off {now : Stamp} {l : List Stamp} (h : ∀ a rest, l = a :: rest → ticksSince now a < 360000) :
    oldestAged now l = false := by
  cases l with
  | nil => rfl
  | cons a rest => exact decide_eq_false (Nat.not_le.mpr (h a rest rfl))

theorem shelfDue_off {o : Option Record} (h : ∀ r, o = some r → r.shelved = false ∨ r.shelf ≠ some 0) :
    (o.any fun r => r.shelved && timerDue r.shelf) = false := by
  cases o with
  | none => rfl
  | some r =>
    show (r.shelved && timerDue r.shelf) = false
    obtain hs | ht := h r rfl
    · rw [hs]; rfl
    · rw [timerDue_off ht, Bool.and_false]

/-- Settles O60. Every clause but those of the pulse, the run second and the store report is a timer not due. -/
theorem eventsNotDueChangeNothing : Obligations.EventsNotDueChangeNothing := by
  refine fun s f w p l x y r v q b i => ⟨fun h => ⟨exec_notDue (timerDue_off h), exec_notDue (timerDue_and_off h)⟩, fun h => ?_,
    fun h => exec_notDue (timerDue_off h), fun h => exec_notDue (timerDue_and_off h), fun h => exec_notDue (timerDue_off h),
    fun h => exec_notDue (oldestAged_off h), fun hu hd => exec_notDue (by simp [eventDue, hu, hd]), fun h => exec_notDue (timerDue_off h),
    fun h => exec_notDue (timerDue_off h), fun h => exec_notDue (decide_eq_false (Nat.not_le.mpr h)),
    fun h => exec_notDue (timerDue_off h), fun h => exec_notDue (timerDue_and_off h), fun h => exec_notDue (timerDue_off h),
    fun h => exec_notDue (timerDue_and_off h), fun h => exec_notDue (timerDue_and_off h), fun h => exec_notDue (timerDue_off h),
    fun h => exec_notDue (timerDue_off h), fun h => exec_notDue (timerDue_off h),
    fun h => ⟨exec_notDue (timerDue_and_off h), exec_notDue (timerDue_and_off h)⟩, fun h => exec_notDue (timerDue_off h),
    fun h => exec_notDue (timerDue_and_off h), fun h => exec_notDue (shelfDue_off h), fun h => exec_notDue (timerDue_off h),
    fun h => exec_notDue (by simp [eventDue, timerDue_off h]), fun h => exec_notDue (timerDue_off h),
    fun h => exec_notDue (timerDue_and_off h), fun h => exec_notDue (timerDue_and_off h),
    fun h => exec_notDue (timerDue_and_off h), fun h => exec_notDue (timerDue_and_off h), fun h => exec_notDue (by simp [eventDue, h]),
    fun h => exec_notDue (by simp [eventDue, h]), fun h => exec_notDue (timerDue_off h)⟩
  exact exec_notDue (by simp [eventDue, lastRound, Nat.not_le.mpr h])

/-! The reset state -/

theorem coldStart_reset : coldStart State.reset = State.reset := by decide +kernel

theorem reset_ladder : LadderOk State.reset.duty.ladder := .refl _

/-- With no claim held, free is 0 or more. -/
theorem reset_power : PowerOk State.reset := ⟨reset_ladder, free_of_unclaimed (by decide)⟩

theorem reset_motors : MotorsExclusive State.reset := fun n => by
  rw [show State.reset.screen n = .waitingToHome from Two.get_const ..]
  exact fun h => Bool.noConfusion h.1

/-- Settles O2: the cold start of the reset state is evaluated. -/
theorem resetIsAColdStart : Obligations.ResetIsAColdStart :=
  ⟨congrArg Outcome.next coldStart_reset, reset_ladder, reset_motors, ⟨rfl, Nat.zero_le _⟩, rfl,
    ⟨Nat.le_refl _, fun _ => rfl, Nat.zero_le _⟩, reset_power⟩

end Sys2Proof.Machine
end


section
/-!
SUPPORT. The panel commands (section 12.2): in IDLE the bytes of each execute the definition its code names, on the state in
which they have been taken.
-/

namespace Sys2Proof.Machine

open Host (Outcome)

/-- A panel command in IDLE is its bytes, and they execute it. -/
theorem exec_command {i : Instr} {s : State} (code : Byte) (ps : List Byte) (h : s.portIdle)
    (hi : exec i s = .next (writeBytes (code :: ps) s)) (hc : parameterCount? code.toNat = some ps.length) :
    exec i s = .next (runCommand code.toNat ps (s.taken code ps)) :=
  hi.trans (congrArg Outcome.next (writeBytes_command h hc))

/-! The commands whose operands are bytes -/

variable {s : State}

theorem exec_readSummary (h : s.portIdle) : exec .readSummary s =
    .next (cmdReadSummary (s.taken 0x01 [])) := exec_command 0x01 [] h rfl rfl

theorem exec_readChannels (h : s.portIdle) : exec .readChannels s =
    .next (cmdReadChannels (s.taken 0x02 [])) := exec_command 0x02 [] h rfl rfl

theorem exec_readTallies (h : s.portIdle) : exec .readTallies s =
    .next (cmdReadTallies (s.taken 0x03 [])) := exec_command 0x03 [] h rfl rfl

theorem exec_readPump (h : s.portIdle) (b : Byte) : exec (.readPump b) s =
    .next (cmdReadPump b.toNat (s.taken 0x10 [b])) := exec_command 0x10 [b] h rfl rfl

theorem exec_inhibitPump (h : s.portIdle) (b : Byte) : exec (.inhibitPump b) s =
    .next (cmdInhibit b.toNat (s.taken 0x11 [b])) := exec_command 0x11 [b] h rfl rfl

theorem exec_releasePump (h : s.portIdle) (b : Byte) : exec (.releasePump b) s =
    .next (cmdRelease b.toNat (s.taken 0x12 [b])) := exec_command 0x12 [b] h rfl rfl

theorem exec_resetLockout (h : s.portIdle) (c n : Byte) : exec (.resetLockout c n) s =
    .next (cmdReset c.toNat n.toNat (s.taken 0x13 [c, n])) := exec_command 0x13 [c, n] h rfl rfl

theorem exec_readScreen (h : s.portIdle) (b : Byte) : exec (.readScreen b) s =
    .next (cmdReadScreen b.toNat (s.taken 0x20 [b])) := exec_command 0x20 [b] h rfl rfl

theorem exec_rakeCycle (h : s.portIdle) (b : Byte) : exec (.rakeCycle b) s =
    .next (cmdRakeCycle b.toNat (s.taken 0x21 [b])) := exec_command 0x21 [b] h rfl rfl

theorem exec_rakeHome (h : s.portIdle) (b : Byte) : exec (.rakeHome b) s =
    .next (cmdRakeHome b.toNat (s.taken 0x22 [b])) := exec_command 0x22 [b] h rfl rfl

theorem exec_rakeFinish (h : s.portIdle) (b c : Byte) : exec (.rakeFinish b c) s =
    .next (cmdRakeFinish b.toNat c.toNat (s.taken 0x24 [b, c])) := exec_command 0x24 [b, c] h rfl rfl

theorem exec_senseScreen (h : s.portIdle) (b : Byte) : exec (.senseScreen b) s =
    .next (cmdSense b.toNat (s.taken 0x25 [b])) := exec_command 0x25 [b] h rfl rfl

theorem exec_findCondition (h : s.portIdle) (c n k : Byte) : exec (.findCondition c n k) s =
    .next (cmdFind c.toNat n.toNat k.toNat (s.taken 0x31 [c, n, k])) := exec_command 0x31 [c, n, k] h rfl rfl

theorem exec_acknowledge (h : s.portIdle) (b g : Byte) : exec (.acknowledge b g) s =
    .next (cmdAcknowledge b.toNat g.toNat (s.taken 0x32 [b, g])) := exec_command 0x32 [b, g] h rfl rfl

theorem exec_acknowledgeAll (h : s.portIdle) (v c a : Byte) : exec (.acknowledgeAll v c a) s =
    .next (cmdAckAll v.toNat c.toNat a.toNat (s.taken 0x33 [v, c, a])) := exec_command 0x33 [v, c, a] h rfl rfl

theorem exec_unshelve (h : s.portIdle) (b g : Byte) : exec (.unshelve b g) s =
    .next (cmdUnshelve b.toNat g.toNat (s.taken 0x35 [b, g])) := exec_command 0x35 [b, g] h rfl rfl

theorem exec_retire (h : s.portIdle) (b g : Byte) : exec (.retire b g) s =
    .next (cmdRetire b.toNat g.toNat (s.taken 0x36 [b, g])) := exec_command 0x36 [b, g] h rfl rfl

theorem exec_retireDormant (h : s.portIdle) : exec .retireDormant s =
    .next (cmdRetireDormant (s.taken 0x37 [])) := exec_command 0x37 [] h rfl rfl

theorem exec_returnCondition (h : s.portIdle) (b : Byte) : exec (.returnCondition b) s =
    .next (cmdReturn b.toNat (s.taken 0x39 [b])) := exec_command 0x39 [b] h rfl rfl

theorem exec_silence (h : s.portIdle) : exec .silence s =
    .next (cmdSilence (s.taken 0x3A [])) := exec_command 0x3A [] h rfl rfl

theorem exec_readSettings (h : s.portIdle) (w c k : Byte) : exec (.readSettings w c k) s =
    .next (cmdReadSettings w.toNat c.toNat k.toNat (s.taken 0x41 [w, c, k])) := exec_command 0x41 [w, c, k] h rfl rfl

theorem exec_commitSettings (h : s.portIdle) : exec .commitSettings s =
    .next (cmdCommit (s.taken 0x42 [])) := exec_command 0x42 [] h rfl rfl

theorem exec_discardSettings (h : s.portIdle) : exec .discardSettings s =
    .next (cmdDiscard (s.taken 0x43 [])) := exec_command 0x43 [] h rfl rfl

theorem exec_readClock (h : s.portIdle) : exec .readClock s =
    .next (cmdReadClock (s.taken 0x51 [])) := exec_command 0x51 [] h rfl rfl

theorem exec_readLink (h : s.portIdle) : exec .readLink s =
    .next (cmdReadLink (s.taken 0x52 [])) := exec_command 0x52 [] h rfl rfl

theorem exec_portReset (h : s.portIdle) : exec .portReset s =
    .next (portResets (s.taken 0x62 [])) := exec_command 0x62 [] h rfl rfl

/-! The commands with longer operands -/

theorem exec_setDutyOrder (h : s.portIdle) (o : Six Byte) : exec (.setDutyOrder o) s =
    .next (cmdSetOrder (o.toList.map BitVec.toNat) (s.taken 0x14 o.toList)) := exec_command 0x14 o.toList h rfl rfl

theorem exec_loadTotals (h : s.portIdle) (b : Byte) (run starts : BitVec 32) : exec (.loadTotals b run starts) s =
    .next (cmdLoadTotals b.toNat run.toNat starts.toNat
      (s.taken 0x15 (b :: (bytes4 run.toNat ++ bytes4 starts.toNat)))) := by
  rw [exec_command 0x15 (b :: (bytes4 run.toNat ++ bytes4 starts.toNat)) h rfl rfl]
  have hrun := natOfBytes_long run
  have hstarts := natOfBytes_long starts
  exact congr_two (fun m n => Outcome.next (cmdLoadTotals b.toNat m n _)) hrun hstarts

theorem exec_rakePosition (h : s.portIdle) (b : Byte) (w : BitVec 16) : exec (.rakePosition b w) s =
    .next (cmdRakePosition b.toNat w.toNat (s.taken 0x23 (b :: bytes2 w.toNat))) := by
  rw [exec_command 0x23 (b :: bytes2 w.toNat) h rfl rfl]
  exact congrArg (fun n => Outcome.next (cmdRakePosition b.toNat n _)) (natOfBytes_word w)

theorem exec_readConditions (h : s.portIdle) (st mx sev sts sh cl : Byte) :
    exec (.readConditions st mx sev sts sh cl) s =
    .next (cmdReadConditions st.toNat mx.toNat sev.toNat sts.toNat sh.toNat cl.toNat
      (s.taken 0x30 [st, mx, sev, sts, sh, cl])) := exec_command 0x30 [st, mx, sev, sts, sh, cl] h rfl rfl

theorem exec_shelve (h : s.portIdle) (b g : Byte) (w : BitVec 16) : exec (.shelve b g w) s =
    .next (cmdShelve b.toNat g.toNat w.toNat (s.taken 0x34 (b :: g :: bytes2 w.toNat))) := by
  rw [exec_command 0x34 (b :: g :: bytes2 w.toNat) h rfl rfl]
  exact congrArg (fun n => Outcome.next (cmdShelve b.toNat g.toNat n _)) (natOfBytes_word w)

theorem exec_postCondition (h : s.portIdle) (c v n : Byte) {data : List Byte} (hd : data.length = 8) :
    exec (.postCondition c v n data) s =
    .next (cmdPost c.toNat v.toNat n.toNat data (s.taken 0x38 (c :: v :: n :: data))) :=
  exec_command 0x38 (c :: v :: n :: data) h rfl (congrArg some (congrArg (· + 3) hd.symm :))

theorem exec_loadSettings (h : s.portIdle) (c k : Byte) (v : BitVec 32) : exec (.loadSettings c k v) s =
    .next (cmdLoadSettings c.toNat k.toNat v.toNat (s.taken 0x40 (c :: k :: bytes4 v.toNat))) := by
  rw [exec_command 0x40 (c :: k :: bytes4 v.toNat) h rfl rfl]
  exact congrArg (fun n => Outcome.next (cmdLoadSettings c.toNat k.toNat n _)) (natOfBytes_long v)

theorem exec_setClock (h : s.portIdle) (v : BitVec 32) (ticks : Byte) : exec (.setClock v ticks) s =
    .next (cmdSetClock v.toNat ticks.toNat (s.taken 0x50 (bytes4 v.toNat ++ [ticks]))) := by
  rw [exec_command 0x50 (bytes4 v.toNat ++ [ticks]) h rfl rfl]
  exact congrArg (fun n => Outcome.next (cmdSetClock n ticks.toNat _)) (natOfBytes_long v)

end Sys2Proof.Machine
end


section
/-!
SUPPORT. The panel port's exchange (O39, O41, O44), and the commands whose answer is all they do: SILENCE (O38), the
settings and the clock (O57).
-/

namespace Sys2Proof.Machine

open Host (Outcome)

/-! The exchange (R156, R158, R159, R171) -/

theorem dataWrite_idle {s : State} (h : s.portIdle) (b : Byte) : dataWrite b s = takeCode b s := by
  simp [dataWrite, h.1, h.2]

theorem dataWrite_parameters {s : State} {c : Byte} {qs : List Byte} (hr : s.port.resetLine = false)
    (hp : s.port.phase = .parameters c qs) (b : Byte) : dataWrite b s = takeParameter c qs b s := by
  simp [dataWrite, hr, hp]

theorem takeCode_waits {b : Byte} {n : Nat} (s : State) (h : parameterCount? b.toNat = some (n + 1)) :
    takeCode b s = s.onPort fun p => { p with protocol := false, phase := .parameters b [] } := by
  simp only [takeCode, h]
  rfl

theorem takeParameter_count {c : Byte} {n : Nat} (h : parameterCount? c.toNat = some n) (qs : List Byte) (b : Byte)
    (s : State) : takeParameter c qs b s = if n ≤ qs.length + 1 then runCommand c.toNat (qs ++ [b]) s
      else s.onPort fun p => { p with phase := .parameters c (qs ++ [b]) } := by
  simp only [takeParameter, h, Option.getD_some]

/-- Parameter bytes short of the fixed count wait in PARAMETERS. -/
theorem writeBytes_waits {c : Byte} {n : Nat} (hc : parameterCount? c.toNat = some n) (rs qs : List Byte) {s : State}
    (hr : s.port.resetLine = false) (hp : s.port.phase = .parameters c qs) (hn : qs.length + rs.length < n) :
    writeBytes rs s = s.onPort fun p => { p with phase := .parameters c (qs ++ rs) } := by
  induction rs generalizing qs s with
  | nil =>
    rw [List.append_nil, ← hp]
    rfl
  | cons b rs ih =>
    rw [List.length_cons] at hn
    show writeBytes rs (dataWrite b s) = _
    rw [dataWrite_parameters hr hp, takeParameter_count hc, if_neg (by omega),
      ih (qs ++ [b]) (s := s.onPort fun p => { p with phase := .parameters c (qs ++ [b]) }) hr rfl (by simp; omega),
      List.append_assoc]
    rfl

theorem writeBytes_reset {s : State} (h : s.port.resetLine = true) (bs : List Byte) : writeBytes bs s = s := by
  induction bs with
  | nil => rfl
  | cons b bs ih =>
    show writeBytes bs (dataWrite b s) = s
    rw [show dataWrite b s = s from if_pos h, ih]

/-- Settles O39. -/
theorem panelExchange : Obligations.PanelExchange := by
  refine fun s code b ps => ⟨fun hidle hc => ⟨writeBytes_command hidle hc, fun qs hq => ?_⟩, fun hidle => ?_,
    fun c qs n hp hr hc => ?_, fun hp hr bs hbs => writeBytes_fault hr hp hbs, fun hr bs tc => ?_⟩
  · obtain ⟨n, hn⟩ := Nat.exists_eq_add_one_of_ne_zero (Nat.ne_of_gt (Nat.zero_lt_of_lt hq))
    show writeBytes qs (dataWrite code s) = _
    rw [dataWrite_idle hidle, takeCode_waits s (hc.trans (congrArg some hn)), writeBytes_waits hc qs [] _ rfl]
    · rfl
    · simpa using hq
    · exact hidle.2
  · show Outcome.next (dataWrite b s) = _
    rw [dataWrite_idle hidle, takeCode]
    cases parameterCount? b.toNat with
    | none => rfl
    | some n => cases n <;> rfl
  · show Outcome.next (dataWrite b s) = _
    rw [dataWrite_parameters hr hp, takeParameter_count hc]
  · exact ⟨writeBytes_reset hr bs, congrArg Outcome.next (if_pos hr), congrArg Outcome.next (if_pos hr)⟩

/-- A read where no byte is offered gives 0 and is a protocol fault (R158). -/
theorem readData_fault {s : State} (hr : s.port.resetLine = false) (hp : s.port.phase = .executing ∨
    s.port.phase = .idle ∨ s.port.phase = .result [] ∨ ∃ c ps, s.port.phase = .parameters c ps) (tc : Bool) :
    readData tc s = s.onPort fun p => { p with protocol := true, dataOut := 0 } := by
  obtain hp | hp | hp | ⟨c, ps, hp⟩ := hp <;> simp only [readData, hr, hp] <;> rfl

theorem writeStatus_fault {s : State} (hr : s.port.resetLine = false) {b : Byte} (hb : b ≠ 0x5A) :
    writeStatus b s = portFault s := by
  rw [writeStatus, hr, if_neg Bool.false_ne_true, if_neg hb]

/-- Settles O41. -/
theorem protocolFaults : Obligations.ProtocolFaults := by
  refine fun s b tc hr => ⟨fun hp => ?_, fun hb => ?_, fun hp => ?_, fun x rest hp => ?_⟩
  · have hw := dataWrite_fault hr hp b
    exact ⟨congrArg Outcome.next hw, congrArg Outcome.next hw⟩
  · exact congrArg Outcome.next (writeStatus_fault hr hb)
  · exact congrArg Outcome.next (readData_fault hr hp tc)
  · exact congrArg Outcome.next (readData_result hr hp tc)

/-! Port resets (R170, R171) -/

theorem writeStatus_reset {s : State} (hr : s.port.resetLine = false) : writeStatus 0x5A s = portResets s := by
  simp [writeStatus, hr]

theorem releaseReset_early {s : State} (h : s.port.resetTimer ≠ none) : releaseReset s =
    portResets (s.onPort fun p => { p with resetLine := false, resetTimer := none }) :=
  if_pos (Option.isSome_iff_ne_none.mpr h)

theorem releaseReset_late {s : State} (h : s.port.resetTimer = none) : releaseReset s =
    s.onPort fun p => { p with resetLine := false, resetTimer := none } := if_neg (by simp [h])

/-- The port after a reset (R170). -/
theorem portResets_eq (s : State) : portResets s = { s with
    port := ⟨.idle, false, none, .none, .none, false, s.port.dataOut, s.port.resetLine, s.port.resetTimer⟩
    store := { s.store with staging := s.store.running } } := rfl

/-- Settles O44. -/
theorem portResetsHolds : Obligations.PortResets := by
  refine fun s => ⟨fun hr => ?_, fun hidle => ?_, fun hr ht => ?_, fun hr ht => ?_,
    fun hr => ⟨exec_silentDue rfl (by simp [eventDue, hr]), exec_notDue hr⟩, fun hr => exec_notDue (by simp [eventDue, hr])⟩
  · show Outcome.next (writeStatus 0x5A s) = _
    rw [writeStatus_reset hr, portResets_eq, hr]
  · rw [exec_portReset hidle, portResets_eq, ← hidle.2]
    rfl
  · rw [exec_silentDue (i := .resetRelease) rfl hr, releaseReset_early ht]
    rfl
  · rw [exec_silentDue (i := .resetRelease) rfl hr, releaseReset_late ht, ← ht]
    rfl

/-! SILENCE and the flash phase (R147, R151) -/

theorem takeSilence_horn {s : State} (hd : hornDemand s = true) (hs : s.ann.silence = false) :
    takeSilence s = (.done, s.onAnn fun a => { a with silence := true, horn := false }) :=
  if_pos (by rw [hd, hs]; rfl)

theorem takeSilence_already {s : State} (h : hornDemand s = false ∨ s.ann.silence = true) :
    takeSilence s = (.already, s) :=
  if_neg (by obtain h | h := h <;> simp [h])

/-- Settles O38. -/
theorem silenceAndFlash : Obligations.SilenceAndFlash := by
  refine fun s => ⟨fun hidle => ⟨fun hd hs => ?_, fun h => ?_⟩, rfl⟩
  · rw [exec_silence hidle, cmdSilence, takeSilence_horn (s := s.taken 0x3A []) hd hs]
    rfl
  · rw [exec_silence hidle, cmdSilence, takeSilence_already (s := s.taken 0x3A []) h]
    rfl

/-! Settings and the clock (R193, R197) -/

/-- A section's fields after one of its fields is replaced; a section that does not exist holds none. -/
theorem put_sec_same (c : Settings) (f v n : Nat) : (c.put n f v).sec n = (c.sec n).set (f - 1) v := by
  unfold Settings.put
  split
  case h_9 h1 h2 h3 h4 h5 h6 h7 h8 => simp [Settings.sec]
  all_goals rfl

theorem put_sec_other (c : Settings) (f v : Nat) {sec n : Nat} (h : n ≠ sec) : (c.put sec f v).sec n = c.sec n := by
  unfold Settings.put
  split
  case h_9 => rfl
  all_goals
    unfold Settings.sec
    split <;> simp_all

/-- The field replaced reads its value, where the section holds it. -/
theorem get_put_same {c : Settings} {sec f v : Nat} (h : f - 1 < (c.sec sec).length) : (c.put sec f v).get sec f = v := by
  simp [Settings.get, put_sec_same, h]

theorem get_put_other {c : Settings} {sec f v n j : Nat} (h : n ≠ sec ∨ j - 1 ≠ f - 1) :
    (c.put sec f v).get n j = c.get n j := by
  unfold Settings.get
  by_cases e : n = sec
  · subst e
    have hj : f - 1 ≠ j - 1 := fun e' => h.elim (absurd rfl) fun hn => hn e'.symm
    simp [put_sec_same, List.getElem?_set_ne hj]
  · rw [put_sec_other c f v e]

theorem fieldRange?_some {sec f : Nat} {r : FieldRange} (h : fieldRange? sec f = some r) :
    f ≠ 0 ∧ f - 1 < (sectionRanges sec).length := by
  unfold fieldRange? at h
  split at h
  · cases h
  · next hf => exact ⟨hf, (List.getElem?_eq_some_iff.mp h).1⟩

theorem load?_in {c : Settings} {sec f v : Nat} {r : FieldRange} (hr : fieldRange? sec f = some r) (hv : r.holds v = true) :
    c.load? sec f v = some (c.put sec f v) := by
  simp [Settings.load?, hr, hv]

theorem load?_out {c : Settings} {sec f v : Nat} {r : FieldRange} (hr : fieldRange? sec f = some r)
    (hv : r.holds v = false) : c.load? sec f v = none := by
  simp [Settings.load?, hr, hv]

theorem load?_noField {c : Settings} {sec f v : Nat} (hr : fieldRange? sec f = none) : c.load? sec f v = none := by
  simp [Settings.load?, hr]

theorem cmdLoadSettings_some {sec f v : Nat} {s : State} {c : Settings} (h : s.store.staging.load? sec f v = some c) :
    cmdLoadSettings sec f v s = reply .done [] (s.onStore fun st => { st with staging := c }) := by
  simp only [cmdLoadSettings, h]

theorem cmdLoadSettings_none {sec f v : Nat} {s : State} (h : s.store.staging.load? sec f v = none) :
    cmdLoadSettings sec f v s = reply .outOfRange [] s := by
  simp only [cmdLoadSettings, h]

/-- Settles O57. -/
theorem settingsAndClockCommands : Obligations.SettingsAndClockCommands := by
  refine fun s c k v ticks hidle => ⟨fun r hr => ⟨fun hv => ?_, fun hv => ?_, fun hlen => ?_, fun n j hj hne => ?_⟩,
    fun hr => ?_, ?_, fun ht => ?_, fun ht => ?_⟩
  · rw [exec_loadSettings hidle, cmdLoadSettings_some (s := s.taken _ _) (load?_in hr hv)]
    rfl
  · rw [exec_loadSettings hidle, cmdLoadSettings_none (s := s.taken _ _) (load?_out hr hv)]
    rfl
  · exact get_put_same (by rw [hlen]; exact (fieldRange?_some hr).2)
  · have hk := (fieldRange?_some hr).1
    exact get_put_other (hne.imp_right fun h => by omega)
  · rw [exec_loadSettings hidle, cmdLoadSettings_none (s := s.taken _ _) (load?_noField hr)]
    rfl
  · exact exec_discardSettings hidle
  · rw [exec_setClock hidle, cmdSetClock, if_pos ht]
    rfl
  · rw [exec_setClock hidle, cmdSetClock, if_neg (Nat.not_le.mpr ht)]
    rfl

end Sys2Proof.Machine
end


section
/-!
SUPPORT. The town's requests: what a frame meets on its arrival (O46), the requests that read (O47), INHIBIT and DRAWDOWN
(O48).
-/

namespace Sys2Proof.Machine

open Host (Outcome)

/-! Admission (R183, R189) -/

theorem arrive_offline {s : State} (h : s.link.state = .offline) (k tag : Byte) (p : List Byte) : arrive k tag p s = s :=
  if_pos h

/-- A frame that is no JOIN-ACCEPT is dropped in JOINING, and any frame in LOST. -/
theorem arrive_dropped {s : State} {k : Byte} (h : s.link.state = .joining ∧ k.toNat ≠ 2 ∨ s.link.state = .lost)
    (tag : Byte) (p : List Byte) : arrive k tag p s = conclude (hunt s) := by
  have ho : s.link.state ≠ .offline := by obtain ⟨h, -⟩ | h := h <;> simp [h]
  have ht : takeFrame k tag p (hunt s) = hunt s := by
    have hs : (hunt s).link.state = s.link.state := rfl
    unfold takeFrame
    obtain ⟨h, hk⟩ | h := h <;> rw [hs, h]
    exact if_neg hk
  rw [arrive, if_neg ho, ht]

theorem arrive_full {s : State} {k tag : Byte} (p : List Byte) (h : s.link.state = .online ∨ s.link.state = .quiet)
    (hk : k.toNat ≠ 2 ∧ k.toNat ≠ 3 ∧ k.toNat ≠ 4) (hr : 4 ≤ s.link.requests.length) :
    arrive k tag p s = conclude (protocolFault 2 tag s.woken) := by
  rw [arrive_request p h hk.1 hk.2.1 hk.2.2, takeAdmitted, woken_requests, if_pos hr]

theorem arrive_outstanding {s : State} {k tag : Byte} (p : List Byte)
    (h : s.link.state = .online ∨ s.link.state = .quiet) (hk : k.toNat ≠ 2 ∧ k.toNat ≠ 3 ∧ k.toNat ≠ 4)
    (hr : s.link.requests.length < 4) (ht : ∃ r ∈ s.link.requests, r.tag = tag) :
    arrive k tag p s = conclude (protocolFault 3 tag s.woken) := by
  obtain ⟨r, hmem, htag⟩ := ht
  rw [arrive_request p h hk.1 hk.2.1 hk.2.2, takeAdmitted, woken_requests, if_neg (Nat.not_le.mpr hr),
    if_pos (List.any_eq_true.mpr ⟨r, hmem, decide_eq_true htag⟩)]

theorem answerRequest_unnamed {k : Byte} (h : namesRequest k.toNat = false) (p : List Byte) (s : State) :
    answerRequest k p s = (.of .invalidCommand, s) := if_pos (by rw [h]; rfl)

theorem answerRequest_length {k : Byte} {p : List Byte} (h : namesRequest k.toNat = true)
    (hl : p.length ≠ requestLength k.toNat) (s : State) : answerRequest k p s = (.of .outOfRange, s) := by
  rw [answerRequest, if_neg (by rw [h]; decide), if_pos hl]

theorem answerRequest_run {k : Byte} {p : List Byte} (h : namesRequest k.toNat = true)
    (hl : p.length = requestLength k.toNat) (s : State) : answerRequest k p s = runRequest k.toNat p s := by
  rw [answerRequest, if_neg (by rw [h]; decide), if_neg (Classical.not_not.mpr hl)]

/-- What every frame taken as a request meets, whatever its kind (R177, R183). -/
theorem request_meets {s : State} {k tag : Byte} {p : List Byte} (hk : k.toNat ≠ 2 ∧ k.toNat ≠ 3 ∧ k.toNat ≠ 4) :
    (s.link.state = .offline → arrive k tag p s = s) ∧
    (s.link.state = .joining ∨ s.link.state = .lost → arrive k tag p s = conclude (hunt s)) ∧
    (s.link.state = .online ∨ s.link.state = .quiet →
      (4 ≤ s.link.requests.length → arrive k tag p s = conclude (protocolFault 2 tag s.woken)) ∧
      (s.link.requests.length < 4 → (∃ r ∈ s.link.requests, r.tag = tag) →
        arrive k tag p s = conclude (protocolFault 3 tag s.woken))) ∧
    (Admits tag s → namesRequest k.toNat = false → arrive k tag p s = conclude (s.woken.responded k tag [9])) ∧
    (Admits tag s → namesRequest k.toNat = true → p.length ≠ requestLength k.toNat →
      arrive k tag p s = conclude (s.woken.responded k tag [6])) := by
  refine ⟨fun h => arrive_offline h .., fun h => arrive_dropped (h.imp_left fun h => ⟨h, hk.1⟩) .., fun h =>
    ⟨arrive_full p h hk, arrive_outstanding p h hk⟩, fun ha hn => ?_, fun ha hn hl => ?_⟩
  · rw [arrive_admitted p ha hk.1 hk.2.1 hk.2.2, answerRequest_unnamed hn]
    rfl
  · rw [arrive_admitted p ha hk.1 hk.2.1 hk.2.2, answerRequest_length hn hl]
    rfl

/-- Settles O46: each row is the arrival of its kind. -/
theorem requestAdmission : Obligations.RequestAdmission := by
  refine ⟨fun s k tag p h2 h3 h4 => ?_, fun s reason b => ⟨rfl, ?_, fun h => ?_⟩⟩
  · have hk : k.toNat ≠ 2 ∧ k.toNat ≠ 3 ∧ k.toNat ≠ 4 :=
      ⟨fun e => h2 (BitVec.eq_of_toNat_eq e), fun e => h3 (BitVec.eq_of_toNat_eq e),
        fun e => h4 (BitVec.eq_of_toNat_eq e)⟩
    have hrow : ∀ (b : Byte) (i : Instr), b.toNat ≠ 2 ∧ b.toNat ≠ 3 ∧ b.toNat ≠ 4 →
        exec i s = .next (arrive b tag p s) →
        (s.link.state = .offline → exec i s = .next s) ∧
        (s.link.state = .joining ∨ s.link.state = .lost → exec i s = .next (conclude (hunt s))) ∧
        (s.link.state = .online ∨ s.link.state = .quiet →
          (4 ≤ s.link.requests.length → exec i s = .next (conclude (protocolFault 2 tag s.woken))) ∧
          (s.link.requests.length < 4 → (∃ r ∈ s.link.requests, r.tag = tag) →
            exec i s = .next (conclude (protocolFault 3 tag s.woken)))) ∧
        (Admits tag s → namesRequest b.toNat = false → exec i s = .next (conclude (s.woken.responded b tag [9]))) ∧
        (Admits tag s → namesRequest b.toNat = true → p.length ≠ requestLength b.toNat →
          exec i s = .next (conclude (s.woken.responded b tag [6]))) := by
      intro b i hb hi
      obtain ⟨hoff, hdrop, hjoined, hnone, hlen⟩ := request_meets (s := s) (tag := tag) (p := p) hb
      rw [hi]
      exact ⟨fun h => congrArg _ (hoff h), fun h => congrArg _ (hdrop h),
        fun h => ⟨fun x => congrArg _ ((hjoined h).1 x), fun x y => congrArg _ ((hjoined h).2 x y)⟩,
        fun x y => congrArg _ (hnone x y), fun x y z => congrArg _ (hlen x y z)⟩
    simp only [List.forall_mem_cons, List.not_mem_nil, false_implies, implies_true, and_true]
    refine ⟨hrow 0x10 _ (by decide) rfl, hrow 0x11 _ (by decide) rfl, hrow 0x12 _ (by decide) rfl,
      hrow 0x13 _ (by decide) rfl, hrow 0x14 _ (by decide) rfl, hrow 0x15 _ (by decide) rfl,
      hrow 0x16 _ (by decide) rfl, hrow 0x17 _ (by decide) rfl, hrow 0x18 _ (by decide) rfl,
      hrow 0x19 _ (by decide) rfl, ?_⟩
    rw [byte_of_toNat]
    exact hrow k _ hk rfl
  · exact congrArg Link.protocolCause (raise_frame ..).link
  · refine (congrArg Link.protocolAck (raise_frame ..).link).trans ?_
    show (s.link.protocolAck && s.link.protocolCause) = false
    rw [h, Bool.and_false]

/-! Handles (R122) -/

theorem resolve_far {t : Table} {i g : Nat} (h : 47 < i) : t.resolve i g = .error .outOfRange := if_pos h

theorem resolve_stale {t : Table} {i g : Nat} (h : i ≤ 47) (hs : (t.slot i).record = none ∨ (t.slot i).gen ≠ g) :
    t.resolve i g = .error .staleHandle := by
  rw [Table.resolve, if_neg (Nat.not_lt.mpr h), if_neg]
  obtain h | h := hs <;> simp [h]

theorem resolve_seated {t : Table} {i g : Nat} {r : Record} (h : i ≤ 47) (hr : (t.slot i).record = some r)
    (hg : (t.slot i).gen = g) : t.resolve i g = .ok i := by
  rw [Table.resolve, if_neg (Nat.not_lt.mpr h), if_pos (by simp [hr, hg])]

/-! Answers -/

/-- An admitted request of its kind's length is run on the state in which the link is awake. -/
theorem exec_request {i : Instr} {s : State} {tag : Byte} (k : Byte) (p : List Byte) (h : Admits tag s)
    (hi : exec i s = .next (arrive k tag p s))
    (hk : (k.toNat ≠ 2 ∧ k.toNat ≠ 3 ∧ k.toNat ≠ 4) ∧ namesRequest k.toNat = true)
    (hl : p.length = requestLength k.toNat) :
    exec i s = .next (conclude (respond k tag (runRequest k.toNat p s.woken))) := by
  rw [hi, arrive_admitted p h hk.1.1 hk.1.2.1 hk.1.2.2, answerRequest_run hk.2 hl]

theorem exec_lookUpByHandle {s : State} {tag : Byte} (h : Admits tag s) (a b : Byte) :
    exec (.lookUpByHandle tag [a, b]) s =
    .next (conclude (respond 0x10 tag (lookHandle a.toNat b.toNat s.woken, s.woken))) :=
  exec_request 0x10 [a, b] h rfl (by decide) rfl

theorem exec_lookUpByKey {s : State} {tag : Byte} (h : Admits tag s) (a b c : Byte) :
    exec (.lookUpByKey tag [a, b, c]) s =
    .next (conclude (respond 0x11 tag (lookKey a.toNat b.toNat c.toNat s.woken, s.woken))) :=
  exec_request 0x11 [a, b, c] h rfl (by decide) rfl

theorem exec_page {s : State} {tag : Byte} (h : Admits tag s) (a b : Byte) : exec (.page tag [a, b]) s =
    .next (conclude (respond 0x12 tag (page a.toNat b.toNat s.woken, s.woken))) :=
  exec_request 0x12 [a, b] h rfl (by decide) rfl

theorem exec_townAcknowledge {s : State} {tag : Byte} (h : Admits tag s) (a b : Byte) :
    exec (.townAcknowledge tag [a, b]) s =
    .next (conclude (respond 0x13 tag (bare (takeAcknowledge a.toNat b.toNat .town s.woken)))) :=
  exec_request 0x13 [a, b] h rfl (by decide) rfl

theorem exec_townRetire {s : State} {tag : Byte} (h : Admits tag s) (a b : Byte) :
    exec (.townRetire tag [a, b]) s =
    .next (conclude (respond 0x14 tag (bare (takeRetire a.toNat b.toNat s.woken)))) :=
  exec_request 0x14 [a, b] h rfl (by decide) rfl

theorem exec_summary {s : State} {tag : Byte} (h : Admits tag s) : exec (.summary tag []) s =
    .next (conclude (respond 0x15 tag (⟨.done, summaryImage s.woken⟩, s.woken))) :=
  exec_request 0x15 [] h rfl (by decide) rfl

theorem exec_takeTally {s : State} {tag : Byte} (h : Admits tag s) (a : Byte) : exec (.takeTally tag [a]) s =
    .next (conclude (respond 0x16 tag (takeTally a.toNat s.woken))) :=
  exec_request 0x16 [a] h rfl (by decide) rfl

theorem exec_inhibit {s : State} {tag : Byte} (h : Admits tag s) (a b : Byte) : exec (.inhibit tag [a, b]) s =
    .next (conclude (respond 0x17 tag (takeInhibit a.toNat b.toNat s.woken))) :=
  exec_request 0x17 [a, b] h rfl (by decide) rfl

theorem exec_drawdown {s : State} {tag : Byte} (h : Admits tag s) (d m : BitVec 16) :
    exec (.drawdown tag (bytes2 d.toNat ++ bytes2 m.toNat)) s =
    .next (conclude (respond 0x18 tag (takeDrawdown d.toNat m.toNat s.woken))) := by
  rw [exec_request 0x18 (bytes2 d.toNat ++ bytes2 m.toNat) h rfl (by decide) rfl]
  exact congr_two (fun x y => Outcome.next (conclude (respond 0x18 tag (takeDrawdown x y s.woken))))
    (natOfBytes_word d) (natOfBytes_word m)

/-! The requests that read (R33, R142, R184, R185) -/

theorem lookHandle_error {a b : Nat} {s : State} {o : ReplyCode} (h : s.table.resolve a b = .error o) :
    lookHandle a b s = .of o := by simp only [lookHandle, h]

theorem lookHandle_ok {a b i : Nat} {s : State} (h : s.table.resolve a b = .ok i) :
    lookHandle a b s = ⟨.done, s.table.image i⟩ := by simp only [lookHandle, h]

theorem image_seated {t : Table} {i : Nat} {r : Record} (h : (t.slot i).record = some r) :
    t.image i = recordImage i (t.slot i).gen r := by simp only [Table.image, h]

theorem lookKey_range {a b c : Nat} {s : State} (h : key? a b c = none) : lookKey a b c s = .of .outOfRange := by
  simp only [lookKey, h]

theorem lookKey_seated {a b c i : Nat} {s : State} {q : Key} (h : key? a b c = some q) (hs : s.table.seatedAt? q = some i) :
    lookKey a b c s = ⟨.done, s.table.image i⟩ := by simp only [lookKey, h, hs]

/-- A key with no record is answered with its place in the waiting list, from 1, or 0. -/
theorem lookKey_unseated {a b c : Nat} {s : State} {q : Key} (h : key? a b c = some q)
    (hs : s.table.seatedAt? q = none) :
    lookKey a b c s = ⟨.notFound, [byte (match s.table.waitsAt? q with | some i => i + 1 | none => 0)]⟩ := by
  simp only [lookKey, h, hs]
  cases s.table.waitsAt? q <;> rfl

theorem takeTally_weir (w : Ix2) (s : State) :
    takeTally w.num s = (⟨.done, tallyImage (s.balance.weirs.get w).tally⟩, clearTally w s) := by
  simp only [takeTally, two?_num]

/-- Settles O47. -/
theorem readingRequests : Obligations.ReadingRequests := by
  intro s tag a b c hadm u answers
  have htab : u.table = s.table := woken_table s
  refine ⟨fun h => ?_, fun h hs => ?_, fun r h hr hg => ?_, fun h => ?_, fun q i h hs => ?_, fun q h hs => ?_, fun h => ?_,
    fun h h1 h4 => ?_, exec_summary hadm, fun w h => ?_, fun h => ?_⟩
  · exact (exec_lookUpByHandle hadm a b).trans (by rw [lookHandle_error (resolve_far h)]; rfl)
  · exact (exec_lookUpByHandle hadm a b).trans (by
      rw [lookHandle_error (resolve_stale h (by rw [htab]; exact hs))]; rfl)
  · have hi : u.table.image a.toNat = recordImage a.toNat b.toNat r := by rw [htab, image_seated hr, hg]
    exact (exec_lookUpByHandle hadm a b).trans (by
      rw [lookHandle_ok (resolve_seated h (by rw [htab]; exact hr) (by rw [htab]; exact hg)), hi]; rfl)
  · exact (exec_lookUpByKey hadm a b c).trans (by rw [lookKey_range h]; rfl)
  · exact (exec_lookUpByKey hadm a b c).trans (by rw [lookKey_seated h (by rw [htab]; exact hs), htab]; rfl)
  · exact (exec_lookUpByKey hadm a b c).trans (by rw [lookKey_unseated h (by rw [htab]; exact hs), htab]; rfl)
  · have hp : page a.toNat b.toNat u = .of .outOfRange := if_neg (by
      simp only [Bool.and_eq_true, decide_eq_true_eq]; omega)
    exact (exec_page hadm a b).trans (by rw [hp]; rfl)
  · have hp : page a.toNat b.toNat u = ⟨.done, byte ((((u.table.seatedFrom a.toNat).drop b.toNat).headD 255)) ::
        (((u.table.seatedFrom a.toNat).take b.toNat).map u.table.image).flatten⟩ := if_pos (by simp [h, h1, h4])
    exact (exec_page hadm a b).trans (by rw [hp, htab]; rfl)
  · have hb : u.balance = s.balance := woken_balance s
    exact (exec_takeTally hadm a).trans (by rw [h, takeTally_weir, hb]; rfl)
  · have ht : takeTally a.toNat u = (.of .outOfRange, u) := by simp only [takeTally, two?_none h]
    exact (exec_takeTally hadm a).trans (by rw [ht]; rfl)

/-! INHIBIT (R52) -/

theorem woken_pump (p : Ix6) (s : State) : s.woken.pump p = s.pump p := (wakeLink_frame false (hunt s)).pump p

theorem stopPump_locks (r : StopReason) (p : Ix6) (s : State) : ((stopPump r p s).pump p).locks = (s.pump p).locks ∧
    ((stopPump r p s).pump p).townMark = (s.pump p).townMark ∧
    ((stopPump r p s).pump p).panelMark = (s.pump p).panelMark := by
  rw [stopPump_pump, if_pos rfl]
  exact ⟨rfl, rfl, rfl⟩

/-- A reason added joins the lockout set and leaves the inhibit marks (R67). -/
theorem addReason_locks (p : Ix6) (r : PumpReason) (es : List Edge) (s : State) :
    ((addReason p r es s).pump p).locks = (s.pump p).locks.put r true ∧
    ((addReason p r es s).pump p).townMark = (s.pump p).townMark ∧
    ((addReason p r es s).pump p).panelMark = (s.pump p).panelMark := by
  have hset : (s.onPump p fun q => { q with locks := q.locks.put r true, acks := q.acks.put r false }).pump p =
      { s.pump p with locks := (s.pump p).locks.put r true, acks := (s.pump p).acks.put r false } := pump_onPump ..
  have hstop := stopPump_locks .lockout p
    (s.onPump p fun q => { q with locks := q.locks.put r true, acks := q.acks.put r false })
  rw [hset] at hstop
  unfold addReason
  dsimp only
  split
  · rw [(offerEdges_frame _ _).pump p, waitNoMore_pump, pump_onPump, hset]
    exact ⟨rfl, rfl, rfl⟩
  · rw [(offerEdges_frame _ _).pump p]; exact hstop
  · rw [(offerEdges_frame _ _).pump p]; exact hstop
  · rw [(offerEdges_frame _ _).pump p, hset]
    exact ⟨rfl, rfl, rfl⟩

/-- A town mark set (R52). -/
theorem setInhibit_town {p : Ix6} {s : State} (h : (s.pump p).townMark = false) : setInhibit p .town s =
    addReason p .townInhibit (if (s.pump p).panelMark then [] else [⟨.pumpInhibited, p.num, some [2]⟩])
      (s.onPump p fun q => { q with townMark := true }) := by
  have hi : (s.pump p).inhibited = (s.pump p).panelMark := by rw [Pump.inhibited, h, Bool.or_false]
  unfold setInhibit
  rw [hi]
  cases (s.pump p).panelMark <;> rfl

/-- A town mark cleared (R52). -/
theorem clearInhibit_town (p : Ix6) (s : State) : clearInhibit p .town s =
    let v := s.onPump p fun q => { q with townMark := false, locks := { q.locks with townInhibit := false } }
    if (s.pump p).panelMark then v else returnKey ⟨.pumpInhibited, p.num⟩ v := by
  have hi : ((s.onPump p fun q => { q with townMark := false, locks := { q.locks with townInhibit := false } }).pump
      p).inhibited = (s.pump p).panelMark := by
    rw [pump_onPump]
    exact Bool.or_false _
  unfold clearInhibit
  dsimp only
  show (if ((s.onPump p fun q => { q with townMark := false, locks := { q.locks with townInhibit := false } }).pump
    p).inhibited = true then _ else _) = _
  rw [hi]
  rfl

theorem clearInhibit_pump (p : Ix6) (s : State) : (clearInhibit p .town s).pump p =
    { s.pump p with townMark := false, locks := { (s.pump p).locks with townInhibit := false } } := by
  rw [clearInhibit_town]
  dsimp only
  split
  · exact pump_onPump ..
  · rw [(returnKey_frame ..).pump p, pump_onPump]

theorem takeInhibit_on (p : Ix6) (s : State) :
    takeInhibit p.num 1 s = (.of .done, if (s.pump p).townMark then s else setInhibit p .town s) := by
  simp only [takeInhibit, six?_num]
  rfl

theorem takeInhibit_off (p : Ix6) (s : State) :
    takeInhibit p.num 0 s = (.of .done, if (s.pump p).townMark then clearInhibit p .town s else s) := by
  simp only [takeInhibit, six?_num]
  rfl

theorem takeInhibit_neither {on : Nat} (h : 1 < on) (p : Ix6) (s : State) :
    takeInhibit p.num on s = (.of .outOfRange, s) := by
  simp only [takeInhibit, six?_num]
  rw [if_neg (by omega), if_neg (by omega)]

theorem takeInhibit_nobody {a : Nat} (h : ∀ p : Ix6, a ≠ p.num) (on : Nat) (s : State) :
    takeInhibit a on s = (.of .outOfRange, s) := by simp only [takeInhibit, six?_none h]

/-! DRAWDOWN (R53, R54) -/

theorem takeDrawdown_float {s : State} (h : s.level.mode = .float) (d m : Nat) :
    takeDrawdown d m s = (⟨.refused, [1]⟩, s) := if_pos h

theorem takeDrawdown_zero {s : State} (h : s.level.mode = .level) {d m : Nat} (hz : d = 0 ∨ m = 0) :
    takeDrawdown d m s = (⟨.done, bytes2 0 ++ bytes2 0⟩, endDrawdown s) := by
  rw [takeDrawdown, if_neg (by rw [h]; decide), if_pos (by obtain h | h := hz <;> simp [h])]

theorem takeDrawdown_begins {s : State} (h : s.level.mode = .level) {d m : Nat} (hd : d ≠ 0) (hm : m ≠ 0) :
    takeDrawdown d m s = (⟨.done, bytes2 (min d 2000) ++ bytes2 (min m 720)⟩,
      beginDrawdown (min d 2000) (min m 720) s) := by
  rw [takeDrawdown, if_neg (by rw [h]; decide), if_neg (by simp [hd, hm])]

theorem drawdownActive_iff (d : Duty) : d.drawdownActive = true ↔ d.drawdownTimer ≠ none := Option.isSome_iff_ne_none

theorem beginDrawdown_state (x y : Nat) (s : State) :
    (s.onDuty fun d => { d with drawdown := x, drawdownTimer := seconds (60 * y) }) =
      s.onDuty fun d => { d with drawdown := x, drawdownTimer := some (6000 * y) } := by
  rw [seconds, ← Nat.mul_assoc]

theorem beginDrawdown_again {s : State} (h : s.duty.drawdownTimer ≠ none) (x y : Nat) : beginDrawdown x y s =
    s.onDuty fun d => { d with drawdown := x, drawdownTimer := some (6000 * y) } := by
  rw [← beginDrawdown_state]
  exact if_pos ((drawdownActive_iff _).mpr h)

theorem beginDrawdown_first {s : State} (h : s.duty.drawdownTimer = none) (x y : Nat) : beginDrawdown x y s =
    raise ⟨.drawdown, 0⟩ .advisory (bytes2 x ++ bytes2 y)
      (s.onDuty fun d => { d with drawdown := x, drawdownTimer := some (6000 * y) }) := by
  rw [← beginDrawdown_state]
  exact if_neg fun k => (drawdownActive_iff _).mp k h

theorem endDrawdown_none {s : State} (h : s.duty.drawdownTimer = none) : endDrawdown s = s := by
  rw [endDrawdown_eq, if_neg fun k => (drawdownActive_iff _).mp k h]

theorem endDrawdown_active {s : State} (h : s.duty.drawdownTimer ≠ none) : endDrawdown s =
    returnKey ⟨.drawdown, 0⟩ (s.onDuty fun d => { d with drawdown := 0, drawdownTimer := none }) := by
  rw [endDrawdown_eq, if_pos ((drawdownActive_iff _).mpr h)]
  rfl

/-- Settles O48. -/
theorem stationRequests : Obligations.StationRequests := by
  intro s tag a b d m hadm u
  have hpump : ∀ p, u.pump p = s.pump p := fun p => woken_pump p s
  have hduty : u.duty = s.duty := woken_duty s
  have hlevel : u.level = s.level := (wakeLink_frame false (hunt s)).level
  refine ⟨fun p hp => ⟨fun hm => ?_, fun hm => ?_, fun hm => ?_, fun hm => ?_, fun hb => ?_⟩, fun h => ?_, fun hf => ?_,
    fun hl hz => ⟨fun ht => ?_, fun ht => ?_⟩, fun hl hd hm => ⟨fun ht => ?_, fun ht => ?_⟩⟩
  · refine ⟨_, ?_, rfl, ?_⟩
    · rw [exec_inhibit hadm, hp, show (1 : Byte).toNat = 1 from rfl, takeInhibit_on, hpump, if_neg (by rw [hm]; decide),
        setInhibit_town (by rw [hpump]; exact hm), hpump]
      rfl
    · obtain ⟨hl, ht, hpm⟩ := addReason_locks p .townInhibit
        (if (s.pump p).panelMark then [] else [⟨.pumpInhibited, p.num, some [2]⟩])
        (u.onPump p fun q => { q with townMark := true })
      rw [pump_onPump, hpump] at hl ht hpm
      exact ⟨ht, hl, hpm⟩
  · refine ⟨clearInhibit p .town u, ?_, ?_, ?_⟩
    · rw [exec_inhibit hadm, hp, show (0 : Byte).toNat = 0 from rfl, takeInhibit_off, hpump, if_pos hm]
      rfl
    · rw [clearInhibit_town, hpump]
    · rw [clearInhibit_pump, hpump]
      exact ⟨rfl, rfl, rfl⟩
  · rw [exec_inhibit hadm, hp, show (1 : Byte).toNat = 1 from rfl, takeInhibit_on, hpump, if_pos hm]
    rfl
  · rw [exec_inhibit hadm, hp, show (0 : Byte).toNat = 0 from rfl, takeInhibit_off, hpump, if_neg (by rw [hm]; decide)]
    rfl
  · rw [exec_inhibit hadm, hp, takeInhibit_neither hb]
    rfl
  · rw [exec_inhibit hadm, takeInhibit_nobody h]
    rfl
  · rw [exec_drawdown hadm, takeDrawdown_float (by rw [hlevel]; exact hf)]
    rfl
  · have hz' : d.toNat = 0 ∨ m.toNat = 0 := hz.imp (fun e => by rw [e]; rfl) fun e => by rw [e]; rfl
    refine (exec_drawdown hadm d m).trans ?_
    rw [takeDrawdown_zero (by rw [hlevel]; exact hl) hz', endDrawdown_none (by rw [hduty]; exact ht)]
    rfl
  · have hz' : d.toNat = 0 ∨ m.toNat = 0 := hz.imp (fun e => by rw [e]; rfl) fun e => by rw [e]; rfl
    refine (exec_drawdown hadm d m).trans ?_
    rw [takeDrawdown_zero (by rw [hlevel]; exact hl) hz', endDrawdown_active (by rw [hduty]; exact ht)]
    rfl
  · have hd' : d.toNat ≠ 0 := fun e => hd (BitVec.eq_of_toNat_eq e)
    have hm' : m.toNat ≠ 0 := fun e => hm (BitVec.eq_of_toNat_eq e)
    refine (exec_drawdown hadm d m).trans ?_
    rw [takeDrawdown_begins (by rw [hlevel]; exact hl) hd' hm', beginDrawdown_again (by rw [hduty]; exact ht)]
    rfl
  · have hd' : d.toNat ≠ 0 := fun e => hd (BitVec.eq_of_toNat_eq e)
    have hm' : m.toNat ≠ 0 := fun e => hm (BitVec.eq_of_toNat_eq e)
    refine (exec_drawdown hadm d m).trans ?_
    rw [takeDrawdown_begins (by rw [hlevel]; exact hl) hd' hm', beginDrawdown_first (by rw [hduty]; exact ht)]
    rfl

end Sys2Proof.Machine
end


section
/-!
SUPPORT. The link's line: the transmitter's choice (O53), the receiver's events (O54) and the bytes of a frame (O55).
-/

namespace Sys2Proof.Machine

open Host (Outcome)

/-! The transmitter (R175, R182) -/

theorem transmit_joined {s : State} (h : s.link.sending = none) (hs : s.link.state = .online ∨ s.link.state = .quiet) :
    transmit s = chooseJoined s := by
  obtain hs | hs := hs <;> simp only [transmit, h, hs] <;> rfl

/-- A free transmitter with nothing to take. -/
theorem transmit_idle {s : State} (h : s.link.sending = none)
    (hs : s.link.state = .offline ∨ s.link.state = .lost ∨ (s.link.state = .joining ∧ s.link.offersOwed = 0)) :
    transmit s = s := by
  obtain hs | hs | ⟨hs, ho⟩ := hs
  · simp only [transmit, h, hs]; rfl
  · simp only [transmit, h, hs]; rfl
  · simp only [transmit, h, hs, ho]; rfl

theorem transmit_offer {s : State} (h : s.link.sending = none) (hs : s.link.state = .joining)
    (ho : s.link.offersOwed ≠ 0) : transmit s =
      sendFrame (offerFrame s) (s.onLink fun l => { l with offersOwed := l.offersOwed - 1 }) := by
  simp only [transmit, h, hs]
  exact if_pos ho

theorem find?_waits {a b : List Request} {r : Request} (ha : ∀ x ∈ a, x.onLine = true) (hr : r.onLine = false) :
    (a ++ r :: b).find? Request.waits = some r :=
  List.find?_eq_some_iff_append.mpr ⟨by rw [Request.waits, hr]; rfl, a, b, rfl, fun x hx => by
    rw [Request.waits, ha x hx]; rfl⟩

theorem find?_waits_none {l : List Request} (h : ∀ x ∈ l, x.onLine = true) : l.find? Request.waits = none :=
  List.find?_eq_none.mpr fun x hx => by rw [Request.waits, h x hx]; decide

/-- The earliest response that waits goes on the line. -/
theorem markOnLine_append {a b : List Request} {r : Request} (ha : ∀ x ∈ a, x.onLine = true) (hr : r.onLine = false) :
    markOnLine (a ++ r :: b) = a ++ { r with onLine := true } :: b := by
  induction a with
  | nil => exact if_pos (by rw [Request.waits, hr]; rfl)
  | cons x a ih =>
    have hx : ¬x.waits = true := by rw [Request.waits, ha x (.head _)]; decide
    rw [List.cons_append, markOnLine, if_neg hx, ih fun y hy => ha y (.tail _ hy)]
    rfl

/-- Of what is owed, the one of the smallest change order goes first (R182). -/
theorem earliest_mem {l : List Owing} {m : Owing} (h : earliest l = some m) : m ∈ l := by
  induction l generalizing m with
  | nil => cases h
  | cons o l ih =>
    unfold earliest at h
    split at h
    · cases h; exact .head _
    · next x hx =>
      split at h <;> cases h
      · exact .tail _ (ih hx)
      · exact .head _

theorem earliest_none {l : List Owing} (h : earliest l = none) : l = [] := by
  cases l with
  | nil => rfl
  | cons o l =>
    unfold earliest at h
    split at h
    · cases h
    · split at h <;> cases h

theorem earliest_min {l : List Owing} {m x : Owing} (h : earliest l = some m) (hx : x ∈ l) : m.order ≤ x.order := by
  induction l generalizing m with
  | nil => cases h
  | cons o l ih =>
    unfold earliest at h
    split at h
    · next hn =>
      cases h
      rw [earliest_none hn] at hx
      obtain rfl := List.mem_singleton.mp hx
      exact Nat.le_refl _
    · next y hy =>
      split at h <;> cases h
      · next hlt =>
        obtain rfl | hl := List.mem_cons.mp hx
        · exact Nat.le_of_lt hlt
        · exact ih hy hl
      · next hge =>
        obtain rfl | hl := List.mem_cons.mp hx
        · exact Nat.le_refl _
        · exact Nat.le_trans (Nat.not_lt.mp hge) (ih hy hl)

theorem earliest_eq {l : List Owing} {o : Owing} (ho : o ∈ l) (h : ∀ x ∈ l, x ≠ o → o.order < x.order) :
    earliest l = some o := by
  cases e : earliest l with
  | none => rw [earliest_none e] at ho; cases ho
  | some m =>
    refine Classical.byContradiction fun hne => ?_
    exact absurd (earliest_min e ho) (Nat.not_le.mpr (h m (earliest_mem e) fun hm => hne (congrArg some hm)))

/-- A response that waits goes before all but a WAKE. -/
theorem chooseJoined_response {s : State} (hw : s.link.wakesOwed = 0) {r : Request}
    (hr : s.link.requests.find? Request.waits = some r) : chooseJoined s =
      sendFrame ⟨0x08, r.tag, r.response⟩ (s.onLink fun l => { l with requests := markOnLine l.requests }) := by
  unfold chooseJoined
  dsimp only
  rw [if_neg (Classical.not_not.mpr hw)]
  simp only [hr]

theorem chooseJoined_status {s : State} (hw : s.link.wakesOwed = 0) (hr : ∀ x ∈ s.link.requests, x.onLine = true)
    (ht : s.link.statusOwed = true) : chooseJoined s =
      sendFrame ⟨0x05, 0, summaryImage s⟩ (s.onLink fun l => { l with statusOwed := false }) := by
  unfold chooseJoined
  dsimp only
  rw [if_neg (Classical.not_not.mpr hw)]
  simp only [find?_waits_none hr]
  exact if_pos ht

/-- No notice is taken in QUIET, without a credit, or where none is owed. -/
theorem chooseJoined_nothing {s : State} (hw : s.link.wakesOwed = 0) (hr : ∀ x ∈ s.link.requests, x.onLine = true)
    (ht : s.link.statusOwed = false) (h : s.link.state = .quiet ∨ s.link.credits = 0 ∨ s.table.owing = []) :
    chooseJoined s = s := by
  unfold chooseJoined
  dsimp only
  rw [if_neg (Classical.not_not.mpr hw)]
  simp only [find?_waits_none hr, ht]
  obtain h | h | h := h <;> simp [h, earliest]

theorem chooseJoined_notice {s : State} (hw : s.link.wakesOwed = 0) (hr : ∀ x ∈ s.link.requests, x.onLine = true)
    (ht : s.link.statusOwed = false) (hs : s.link.state = .online) (hc : s.link.credits ≠ 0) {o : Owing}
    (ho : o ∈ s.table.owing) (hmin : ∀ x ∈ s.table.owing, x ≠ o → o.order < x.order) :
    chooseJoined s = sendNoticeFrame o s := by
  unfold chooseJoined
  dsimp only
  rw [if_neg (Classical.not_not.mpr hw)]
  simp [find?_waits_none hr, ht, hs, hc, earliest_eq ho hmin]

/-- Settles O53: the choice is walked in its order. -/
theorem transmitterOrder : Obligations.TransmitterOrder := by
  refine fun s => ⟨fun h => transmit_busy (Option.isSome_iff_ne_none.mpr h), fun hfree => ⟨transmit_idle hfree, fun hs ho => ?_, fun hs hw => ?_,
    fun hs hw a r b hreq ha hr => ?_, fun hs hw hr => ⟨fun ht => ?_, fun ht h => ?_, fun ht hon hc o ho hmin =>
      ⟨fun hrec => ?_, fun hrec => ?_⟩⟩⟩⟩
  · rw [transmit_offer hfree hs ho]
    rfl
  · rw [transmit_joined hfree hs, chooseJoined]
    exact if_pos hw
  · rw [transmit_joined hfree hs, chooseJoined_response hw (by rw [hreq]; exact find?_waits ha hr),
      ← markOnLine_append ha hr, ← hreq]
    rfl
  · rw [transmit_joined hfree hs, chooseJoined_status hw hr ht]
    rfl
  · rw [transmit_joined hfree hs, chooseJoined_nothing hw hr ht h]
  · rw [transmit_joined hfree hs, chooseJoined_notice hw hr ht hon hc ho hmin, sendNoticeFrame]
    exact if_pos hrec
  · rw [transmit_joined hfree hs, chooseJoined_notice hw hr ht hon hc ho hmin, sendNoticeFrame]
    exact if_neg (by rw [hrec]; decide)

/-! The receiver (R174) -/

theorem receiveByte_offline {s : State} (h : s.link.state = .offline) (b : Byte) : receiveByte b s = s := if_pos h

theorem receiveByte_hunting {s : State} (h : s.link.state ≠ .offline) (ha : s.link.assembly = none) (b : Byte) :
    receiveByte b s = if b = 0xA5 then keepBytes [] s else s := by
  rw [receiveByte, if_neg h, ha]

theorem receiveByte_assembling {s : State} (h : s.link.state ≠ .offline) {bs : List Byte}
    (ha : s.link.assembly = some bs) (b : Byte) : receiveByte b s = takeByte (bs ++ [b]) s := by
  rw [receiveByte, if_neg h, ha]

theorem takeByte_long {len : Byte} (rest : List Byte) (h : 128 < len.toNat) (s : State) :
    takeByte (len :: rest) s = badFrame s := if_pos h

/-- A frame short of its length goes on. -/
theorem takeByte_short {len : Byte} {rest : List Byte} (h : len.toNat ≤ 128) (hl : rest.length + 1 < len.toNat + 5)
    (s : State) : takeByte (len :: rest) s = keepBytes (len :: rest) s := by
  rw [takeByte, if_neg (Nat.not_lt.mpr h), if_neg (by rw [List.length_cons]; omega)]

/-- The last byte of a frame whose check agrees is its arrival. -/
theorem takeByte_arrives {len kind tag : Byte} {rest p : List Byte} (h : len.toNat ≤ 128)
    (hl : rest.length + 1 = len.toNat + 5) (hc : checked? (len :: rest) = some (kind, tag, p)) (s : State) :
    takeByte (len :: rest) s = arrive kind tag p s := by
  rw [takeByte, if_neg (Nat.not_lt.mpr h), if_pos (by rw [List.length_cons]; exact hl)]
  simp only [hc]

theorem takeByte_bad {len : Byte} {rest : List Byte} (h : len.toNat ≤ 128)
    (hl : rest.length + 1 = len.toNat + 5) (hc : checked? (len :: rest) = none) (s : State) :
    takeByte (len :: rest) s = badFrame s := by
  rw [takeByte, if_neg (Nat.not_lt.mpr h), if_pos (by rw [List.length_cons]; exact hl)]
  simp only [hc]

/-- Settles O54. -/
theorem receiverEvents : Obligations.ReceiverEvents := by
  refine fun s b => ⟨fun h => ?_, fun h => exec_silentDue rfl (timerDue_on h), fun h => ⟨?_, ?_, fun ha => ?_, fun ha => ?_,
    fun len rest ha hlen hshort => ?_⟩⟩
  · exact ⟨congrArg Outcome.next (receiveByte_offline h b), exec_notDue (by simp [eventDue, assembles, h]),
      exec_notDue (by simp [eventDue, assembles, h])⟩
  · exact exec_silentDue (i := .frameCheckFail) rfl (decide_eq_true h)
  · exact exec_silentDue (i := .framingError) rfl (decide_eq_true h)
  · exact congrArg Outcome.next (receiveByte_hunting h ha b)
  · refine congrArg Outcome.next ((receiveByte_assembling h ha b).trans ?_)
    split
    · next hlong => exact takeByte_long [] hlong s
    · next hlong => exact takeByte_short (rest := []) (Nat.not_lt.mp hlong) (by simp) s
  · refine congrArg Outcome.next ((receiveByte_assembling h ha b).trans ?_)
    exact takeByte_short (rest := rest ++ [b]) hlen (by simpa using hshort) s

/-! A frame's bytes (R174, R201) -/

/-- Bytes received one after another. -/
def receiveBytes (bs : List Byte) (s : State) : State := bs.foldl (fun s b => receiveByte b s) s

theorem receiveBytes_append (as bs : List Byte) (s : State) :
    receiveBytes (as ++ bs) s = receiveBytes bs (receiveBytes as s) := List.foldl_append ..

/-- The bytes of a frame short of its length stay in assembly. -/
theorem receiveBytes_short {s : State} (h : s.link.state ≠ .offline) {len : Byte} (hlen : len.toNat ≤ 128)
    (cs rest : List Byte) (hl : rest.length + cs.length + 1 < len.toNat + 5) :
    receiveBytes cs (keepBytes (len :: rest) s) = keepBytes (len :: (rest ++ cs)) s := by
  induction cs generalizing rest with
  | nil => rw [List.append_nil]; rfl
  | cons c cs ih =>
    rw [List.length_cons] at hl
    have hone : receiveByte c (keepBytes (len :: rest) s) = keepBytes (len :: (rest ++ [c])) s := by
      rw [receiveByte_assembling (s := keepBytes (len :: rest) s) h rfl]
      exact takeByte_short hlen (by simp; omega) _
    show receiveBytes cs (receiveByte c (keepBytes (len :: rest) s)) = _
    rw [hone, ih (rest ++ [c]) (by simp; omega), List.append_assoc]
    rfl

theorem byte_length {p : List Byte} (h : p.length ≤ 128) : (byte p.length).toNat = p.length := by
  rw [byte_toNat]
  omega

/-- The start byte and the body of a frame, received while the receiver hunts. -/
theorem receiveBytes_body {s : State} (h : s.link.state ≠ .offline) (ha : s.link.assembly = none) {kind tag : Byte}
    {p : List Byte} (hp : p.length ≤ 128) (c : Byte) :
    receiveBytes (0xA5 :: (byte p.length :: kind :: tag :: (p ++ [c]))) s =
      keepBytes (byte p.length :: kind :: tag :: (p ++ [c])) s := by
  have hlen := byte_length hp
  have hstart : receiveByte 0xA5 s = keepBytes [] s := (receiveByte_hunting h ha 0xA5).trans (if_pos rfl)
  have hfirst : receiveByte (byte p.length) (keepBytes [] s) = keepBytes [byte p.length] s := by
    rw [receiveByte_assembling (s := keepBytes [] s) h rfl]
    exact takeByte_short (rest := []) (by omega) (by simp) _
  show receiveBytes (kind :: tag :: (p ++ [c])) (receiveByte (byte p.length) (receiveByte 0xA5 s)) = _
  rw [hstart, hfirst]
  exact receiveBytes_short h (by omega) (kind :: tag :: (p ++ [c])) [] (by simp; omega)

theorem bytes2_word_inj {a b : BitVec 16} (h : bytes2 a.toNat = bytes2 b.toNat) : a = b :=
  BitVec.eq_of_toNat_eq (by rw [← natOfBytes_word a, ← natOfBytes_word b, h])

/-- The bytes of a frame taken apart, with its check or with another. -/
theorem checked?_frame {kind tag : Byte} {p : List Byte} (hp : p.length ≤ 128) (c : BitVec 16) :
    checked? (byte p.length :: kind :: tag :: (p ++ bytes2 c.toNat)) =
      if c = crc (byte p.length :: kind :: tag :: p) then some (kind, tag, p) else none := by
  have hlen := byte_length hp
  unfold checked?
  dsimp only
  rw [hlen, List.take_left, List.drop_left]
  by_cases hc : c = crc (byte p.length :: kind :: tag :: p)
  · rw [if_pos hc, if_pos (by rw [hc])]
  · rw [if_neg hc, if_neg fun e => hc (bytes2_word_inj e)]

/-- The last byte of a frame comes to the frame in assembly. -/
theorem receiveBytes_frame {s : State} (h : s.link.state ≠ .offline) (ha : s.link.assembly = none) {kind tag : Byte}
    {p : List Byte} (hp : p.length ≤ 128) (x y : Byte) :
    receiveBytes (0xA5 :: (byte p.length :: kind :: tag :: p ++ [x, y])) s =
      takeByte (byte p.length :: kind :: tag :: (p ++ [x, y])) (keepBytes (byte p.length :: kind :: tag :: (p ++ [x])) s) := by
  have hsplit : (0xA5 : Byte) :: (byte p.length :: kind :: tag :: p ++ [x, y]) =
      (0xA5 :: (byte p.length :: kind :: tag :: (p ++ [x]))) ++ [y] := by simp
  have hwhole : byte p.length :: kind :: tag :: (p ++ [x]) ++ [y] = byte p.length :: kind :: tag :: (p ++ [x, y]) := by
    simp
  rw [hsplit, receiveBytes_append, receiveBytes_body h ha hp, ← hwhole]
  exact receiveByte_assembling (s := keepBytes _ s) h rfl y

theorem arrive_keepBytes (bs : List Byte) {s : State} (h : s.link.state ≠ .offline) (kind tag : Byte) (p : List Byte) :
    arrive kind tag p (keepBytes bs s) = arrive kind tag p s := by
  have hk : (keepBytes bs s).link.state ≠ .offline := h
  have hh : hunt (keepBytes bs s) = hunt s := rfl
  rw [arrive, arrive, if_neg h, if_neg hk, hh]

/-- All of a frame's bytes, with its check. -/
theorem receiveBytes_good {s : State} (h : s.link.state ≠ .offline) (ha : s.link.assembly = none) {kind tag : Byte}
    {p : List Byte} (hp : p.length ≤ 128) :
    receiveBytes (0xA5 :: (byte p.length :: kind :: tag :: p ++
      bytes2 (crc (byte p.length :: kind :: tag :: p)).toNat)) s = arrive kind tag p s := by
  have hlen := byte_length hp
  have hc := (checked?_frame (kind := kind) (tag := tag) hp (crc (byte p.length :: kind :: tag :: p))).trans (if_pos rfl)
  refine (receiveBytes_frame h ha hp _ _).trans ?_
  exact (takeByte_arrives (by omega) (by simp [hlen, bytes2]) hc _).trans (arrive_keepBytes _ h ..)

/-- All of a frame's bytes, with any other check. -/
theorem receiveBytes_bad {s : State} (h : s.link.state ≠ .offline) (ha : s.link.assembly = none) {kind tag : Byte}
    {p : List Byte} (hp : p.length ≤ 128) {c : BitVec 16} (hne : c ≠ crc (byte p.length :: kind :: tag :: p)) :
    receiveBytes (0xA5 :: (byte p.length :: kind :: tag :: p ++ bytes2 c.toNat)) s = badFrame s := by
  have hlen := byte_length hp
  have hc := (checked?_frame (kind := kind) (tag := tag) hp c).trans (if_neg hne)
  refine (receiveBytes_frame h ha hp _ _).trans ?_
  exact takeByte_bad (by omega) (by simp [hlen, bytes2]) hc _

/-- Settles O55. -/
theorem frameBytesArrive : Obligations.FrameBytesArrive := by
  refine fun s kind tag p check hp hs ha => ⟨?_, fun hne => ?_⟩
  · exact receiveBytes_good hs ha hp
  · exact receiveBytes_bad hs ha hp hne

end Sys2Proof.Machine
end


section
/-!
SUPPORT. Debounced lines (O13): which operations leave every line, the levels, the balance, the settings and the clock; and
the rounds of a period (O14).
-/

namespace Sys2Proof.Machine

open Host (Outcome)

/-! What leaves every line as it stands -/

/-- A pump's five debounced lines. -/
def Pump.wires (q : Pump) : List Debounced := [q.hand, q.auto, q.feedback, q.thermal, q.sealProbe]

/-- A screen's three debounced lines. -/
def Screen.wires (a : Screen) : List Debounced := [a.home, a.bottom, a.overload]

/-- The three debounced power lines. -/
def Power.wires (w : Power) : List Debounced := [w.mainsOk, w.genOn, w.transferReq]

/-- The lines, the levels, the balance, the settings and the clock stand. -/
structure Wired (s t : State) : Prop where
  clock : t.clock = s.clock
  level : t.level = s.level
  balance : t.balance = s.balance
  store : t.store = s.store
  pumps : ∀ p, (t.pump p).wires = (s.pump p).wires
  power : t.power.wires = s.power.wires
  screens : ∀ n, (t.screen n).wires = (s.screen n).wires

theorem Wired.refl (s : State) : Wired s s := ⟨rfl, rfl, rfl, rfl, fun _ => rfl, rfl, fun _ => rfl⟩

theorem Wired.trans {s t u : State} (h : Wired s t) (k : Wired t u) : Wired s u :=
  ⟨k.clock.trans h.clock, k.level.trans h.level, k.balance.trans h.balance, k.store.trans h.store,
    fun p => (k.pumps p).trans (h.pumps p), k.power.trans h.power, fun n => (k.screens n).trans (h.screens n)⟩

theorem PlantFrame.wired {s t : State} (h : PlantFrame s t) : Wired s t :=
  ⟨h.clock, h.level, h.balance, h.store, fun p => by rw [h.pumps p]; rfl, by rw [h.power]; rfl,
    fun n => by rw [h.screens n]; rfl⟩

theorem EdgeFrame.wired {s t : State} (h : EdgeFrame s t) : Wired s t := h.plant.wired

theorem ConcludeFrame.wired {s t : State} (h : ConcludeFrame s t) : Wired s t :=
  ⟨h.clock, h.level, h.balance, h.store, fun p => by rw [h.pumps p]; rfl, by rw [h.power]; rfl,
    fun n => by rw [h.screens n]; rfl⟩

theorem wired_onPump (p : Ix6) (f : Pump → Pump) (s : State) (h : ∀ q, (f q).wires = q.wires := by exact fun _ => rfl) :
    Wired s (s.onPump p f) :=
  ⟨rfl, rfl, rfl, rfl, fun q => by
    rw [State.onPump_pump]
    split
    · exact h _
    · rfl, rfl, fun _ => rfl⟩

theorem wired_onScreen (n : Ix2) (f : Screen → Screen) (s : State)
    (h : ∀ a, (f a).wires = a.wires := by exact fun _ => rfl) : Wired s (s.onScreen n f) :=
  ⟨rfl, rfl, rfl, rfl, fun _ => rfl, rfl, fun m => by
    rw [State.onScreen_screen]
    split
    · exact h _
    · rfl⟩

theorem wired_onPower (f : Power → Power) (s : State) (h : (f s.power).wires = s.power.wires) : Wired s (s.onPower f) :=
  ⟨rfl, rfl, rfl, rfl, fun _ => rfl, h, fun _ => rfl⟩

/-! The operations of a line's expiry -/

theorem enterRunOn_wired (r : Route) (p : Ix6) (s : State) : Wired s (enterRunOn r p s) :=
  (wired_onPump p _ s).trans (offerEdges_frame ..).wired

theorem deriveSelector_wired (p : Ix6) (s : State) : Wired s (deriveSelector p s) := by
  unfold deriveSelector
  dsimp only
  split
  · exact .refl s
  unfold moveSelector
  dsimp only
  split
  · split
    · exact (wired_onPump p _ s).trans (enterRunOn_wired ..)
    · exact wired_onPump p _ s
  · exact ((wired_onPump p _ s).trans (waitNoMore_frame ..).wired).trans (offerEdges_frame ..).wired

theorem addReason_wired (p : Ix6) (r : PumpReason) (es : List Edge) (s : State) : Wired s (addReason p r es s) := by
  have h1 : Wired s (s.onPump p fun q => { q with locks := q.locks.put r true, acks := q.acks.put r false }) :=
    wired_onPump p _ s
  unfold addReason
  dsimp only
  split
  · exact ((h1.trans (wired_onPump p _ _)).trans (waitNoMore_frame ..).wired).trans (offerEdges_frame ..).wired
  · exact (h1.trans (stopPump_frame ..).wired).trans (offerEdges_frame ..).wired
  · exact (h1.trans (stopPump_frame ..).wired).trans (offerEdges_frame ..).wired
  · exact h1.trans (offerEdges_frame ..).wired

theorem lockPump_wired (p : Ix6) (r : PumpReason) (x : List Byte) (s : State) : Wired s (lockPump p r x s) :=
  addReason_wired ..

theorem releaseReasons_wired (p : Ix6) (s : State) : Wired s (releaseReasons p s) :=
  (wired_onPump p _ s).trans (offerEdges_frame ..).wired

theorem feedbackPresent_wired (p : Ix6) (s : State) : Wired s (feedbackPresent p s) := by
  unfold feedbackPresent
  split
  · exact wired_onPump p _ s
  · exact enterRunOn_wired ..
  · exact (leaveQueue_frame ..).wired.trans (enterRunOn_wired ..)
  · split
    · exact enterRunOn_wired ..
    · exact .refl s
  · exact .refl s

theorem feedbackAbsent_wired (p : Ix6) (s : State) : Wired s (feedbackAbsent p s) := by
  unfold feedbackAbsent
  split
  · exact lockPump_wired ..
  · exact (wired_onPump p _ s).trans (returnKind_frame ..).wired
  · exact .refl s

theorem pumpInputMoved_wired (p : Ix6) (i : PumpInput) (s : State) : Wired s (pumpInputMoved p i s) := by
  cases i with
  | feedback =>
    unfold pumpInputMoved
    dsimp only
    split
    · exact feedbackPresent_wired ..
    · exact feedbackAbsent_wired ..
  | thermal =>
    unfold pumpInputMoved thermalMoved
    dsimp only
    split
    · split
      · exact .refl s
      · exact lockPump_wired ..
    · exact releaseReasons_wired ..
  | sealProbe =>
    unfold pumpInputMoved sealMoved
    dsimp only
    split
    · exact (raiseKind_frame ..).wired
    · exact (returnKind_frame ..).wired

theorem deriveSource_wired (s : State) : Wired s (deriveSource s) := by
  unfold deriveSource
  dsimp only
  split
  · exact .refl s
  · exact ((wired_onPower _ s rfl).trans (setFlag_frame ..).wired).trans
      (edges_frame (fun s e => offerEdge e s) (fun s e => offerEdge_frame e s) _ _).wired

theorem powerLineMoved_wired (l : PowerLine) (s : State) : Wired s (powerLineMoved l s) := by
  unfold powerLineMoved
  split
  · split
    · split
      · exact .refl s
      · exact (wired_onPower _ s rfl).trans (setFlag_frame ..).wired
    · split
      · exact ((wired_onPower _ s rfl).trans (setFlag_frame ..).wired).trans (deriveSource_wired _)
      · exact .refl s
  all_goals
    split
    · exact .refl s
    · exact deriveSource_wired s

theorem lockRake_wired (n : Ix2) (r : RakeReason) (x : List Byte) (s : State) : Wired s (lockRake n r x s) := by
  have h1 : Wired s (s.onScreen n fun sc => { sc with locks := sc.locks.put r true, acks := sc.acks.put r false }) :=
    wired_onScreen n _ s
  unfold lockRake enterLocked
  dsimp only
  split
  · exact h1.trans (offerEdges_frame ..).wired
  · refine (h1.trans ?_).trans (offerEdges_frame ..).wired
    refine Wired.trans ?_ ((writeCompletion_frame ..).wired.trans (rest_frame ..).wired)
    split
    · exact (waitNoMore_frame ..).wired
    · exact .refl _

theorem releaseRake_wired (n : Ix2) (s : State) : Wired s (releaseRake n s) := by
  unfold releaseRake
  dsimp only
  generalize hs1 : offerEdges _ (s.onScreen n _) = s1
  have h1 : Wired s s1 := hs1 ▸ (wired_onScreen n _ s).trans (offerEdges_frame ..).wired
  split
  · exact (h1.trans (wired_onScreen n _ s1)).trans (beginOp_frame ..).wired
  · exact h1

theorem homeMade_wired (n : Ix2) (s : State) : Wired s (homeMade n s) := by
  unfold homeMade
  split
  · exact (finishHoming_frame ..).wired
  · exact (enterDischarging_frame ..).wired
  · split
    · exact (wired_onScreen n _ s).trans (finishPosition_frame ..).wired
    · exact .refl s
  · exact (limitInReverse_frame ..).wired
  · exact .refl s

theorem bottomMade_wired (n : Ix2) (s : State) : Wired s (bottomMade n s) := by
  unfold bottomMade
  split
  · exact (enterGripping_frame ..).wired
  · split
    · exact (finishPosition_frame ..).wired
    · exact .refl s
  · exact (limitInReverse_frame ..).wired
  · exact .refl s

theorem rakeInputMoved_wired (n : Ix2) (i : RakeInput) (s : State) : Wired s (rakeInputMoved n i s) := by
  unfold rakeInputMoved
  dsimp only
  split
  · split
    · exact homeMade_wired ..
    · exact .refl s
  · split
    · exact bottomMade_wired ..
    · exact .refl s
  · split
    · split
      · exact .refl s
      · exact lockRake_wired ..
    · exact releaseRake_wired ..

/-! One line of its kind -/

theorem Pump.line_of_wires {q r : Pump} (h : q.wires = r.wires) (l : SelectorLine) : q.line l = r.line l := by
  injection h with hh h
  injection h with ha h
  cases l <;> assumption

theorem Pump.input_of_wires {q r : Pump} (h : q.wires = r.wires) (i : PumpInput) : q.input i = r.input i := by
  injection h with _ h
  injection h with _ h
  injection h with hf h
  injection h with ht h
  injection h with hs h
  cases i <;> assumption

theorem Power.line_of_wires {v w : Power} (h : v.wires = w.wires) (l : PowerLine) : v.line l = w.line l := by
  injection h with hm h
  injection h with hg h
  injection h with ht h
  cases l <;> assumption

theorem Screen.input_of_wires {a b : Screen} (h : a.wires = b.wires) (i : RakeInput) : a.input i = b.input i := by
  injection h with hh h
  injection h with hb h
  injection h with ho h
  cases i <;> assumption

theorem debounced_change (v : Bool) (ticks : Nat) : Debounced.change v ticks = lineAfter v ticks := by
  funext d
  unfold Debounced.change lineAfter
  split
  · rfl
  · split <;> rfl

/-- What a float's expiry does before the end of its event, in the parts that the statement speaks of. -/
theorem wantedAtFloat_parts (f : FloatId) (s : State) : (wantedAtFloat f s).level = s.level ∧
    (wantedAtFloat f s).store = s.store ∧ (wantedAtFloat f s).balance = s.balance ∧
    (wantedAtFloat f s).clock = s.clock := by
  unfold wantedAtFloat
  split
  · exact ⟨rfl, rfl, rfl, rfl⟩
  · split <;> exact ⟨rfl, rfl, rfl, rfl⟩

theorem followHighHighFloat_parts (f : FloatId) (s : State) : (followHighHighFloat s).level.float f = s.level.float f ∧
    (followHighHighFloat s).store = s.store ∧ (followHighHighFloat s).balance = s.balance ∧
    (followHighHighFloat s).clock = s.clock := by
  have h := offerEdges_frame (highHighEdge s.level (Level.formHighHigh { s.level with hhFloatPart := s.level.highHigh.state }))
    (s.onLevel fun l => Level.formHighHigh { l with hhFloatPart := l.highHigh.state })
  have hf : (followHighHighFloat s).level.float f = _ := congrArg (Level.float · f) h.level
  exact ⟨hf.trans (by cases f <;> rfl), h.store, h.balance, h.clock⟩

/-- Settles O13. -/
theorem debouncedLines : Obligations.DebouncedLines := by
  refine ⟨fun s v => ?_, fun s => ⟨fun f h => ⟨_, exec_due rfl (timerDue_on h), ?_⟩,
    fun p l h => ⟨_, exec_due rfl (timerDue_on h), ?_⟩, fun p i h => ⟨_, exec_due rfl (timerDue_on h), ?_⟩,
    fun l h => ⟨_, exec_due rfl (timerDue_on h), ?_⟩, fun n i h => ⟨_, exec_due rfl (timerDue_on h), ?_⟩⟩⟩
  · simp only [← debounced_change]
    exact ⟨fun _ => rfl, fun _ _ => rfl, fun _ _ => rfl, fun _ => rfl, fun _ _ => rfl⟩
  · generalize hu : (if f = .highHigh then followHighHighFloat (s.onLevel (Level.onFloat f Debounced.take))
      else s.onLevel (Level.onFloat f Debounced.take)) = u
    have htaken : (s.onLevel (Level.onFloat f Debounced.take)).level.float f = lineTaken (s.level.float f) := by
      cases f <;> rfl
    have hparts : u.level.float f = lineTaken (s.level.float f) ∧ u.store = s.store ∧ u.balance = s.balance ∧
        u.clock = s.clock := by
      subst hu
      split
      · obtain ⟨hf, hrest⟩ := followHighHighFloat_parts f (s.onLevel (Level.onFloat f Debounced.take))
        exact ⟨hf.trans htaken, hrest⟩
      · exact ⟨htaken, rfl, rfl, rfl⟩
    obtain ⟨hf, hst, hb, hk⟩ := hparts
    obtain ⟨wl, wst, wb, wk⟩ := wantedAtFloat_parts f u
    have hc := conclude_frame (wantedAtFloat f u)
    exact ⟨by rw [hc.level, wl, hf], by rw [hc.store, wst, hst], by rw [hc.balance, wb, hb], by rw [hc.clock, wk, hk]⟩
  · have hw := (deriveSelector_wired p (s.onPump p (Pump.onLine l Debounced.take))).trans (conclude_frame _).wired
    refine ⟨(Pump.line_of_wires (hw.pumps p) l).trans ?_, hw.store, hw.balance, hw.clock⟩
    rw [pump_onPump]
    cases l <;> rfl
  · have hw := (pumpInputMoved_wired p i (s.onPump p (Pump.onInput i Debounced.take))).trans (conclude_frame _).wired
    refine ⟨(Pump.input_of_wires (hw.pumps p) i).trans ?_, hw.store, hw.balance, hw.clock⟩
    rw [pump_onPump]
    cases i <;> rfl
  · have hw := (powerLineMoved_wired l (s.onPower (Power.onLine l Debounced.take))).trans (conclude_frame _).wired
    refine ⟨(Power.line_of_wires hw.power l).trans ?_, hw.store, hw.balance, hw.clock⟩
    cases l <;> rfl
  · have hw := (rakeInputMoved_wired n i (s.onScreen n (Screen.onInput i Debounced.take))).trans (conclude_frame _).wired
    refine ⟨(Screen.input_of_wires (hw.screens n) i).trans ?_, hw.store, hw.balance, hw.clock⟩
    rw [screen_onScreen]
    cases i <;> rfl

/-! Rounds (R1 to R4) -/

/-- Level Acquisition after a good round (R1 to R4). -/
def Level.goodRound (v : Six (BitVec 12)) (r : Nat) (l : Level) : Level :=
  { l with
    roundTimer := some 10, rounds := l.rounds + 1, refRaw := r, refSample := .valid, discarded := 0
    good := min 255 (l.good + 1), channels := Six.gen fun n => (l.channels.get n).judge (v.get n).toNat
    acquisitionFault := l.acquisitionFault && decide (min 255 (l.good + 1) < 10) }

/-- Level Acquisition after a discarded round (R1 to R3). -/
def Level.badRound (v : Six (BitVec 12)) (r : Nat) (l : Level) : Level :=
  { l with
    roundTimer := some 10, rounds := l.rounds + 1, refRaw := r, refSample := .discarded, good := 0
    discarded := min 255 (l.discarded + 1), channels := Six.gen fun n => (l.channels.get n).discard (v.get n).toNat
    acquisitionFault := l.acquisitionFault || decide (3 ≤ min 255 (l.discarded + 1)) }

theorem goodReference_iff (r : Nat) : goodReference r = true ↔ 2007 ≤ r ∧ r ≤ 2089 := by simp [goodReference]

theorem tenGood_iff (f : Bool) (n : Nat) :
    (f && decide (10 ≤ min 255 (n + 1))) = true ↔ f = true ∧ 10 ≤ n + 1 := by
  have hten : 10 ≤ min 255 (n + 1) ↔ 10 ≤ n + 1 := by omega
  rw [Bool.and_eq_true, decide_eq_true_eq, hten]

theorem threeBad_iff (f : Bool) (n : Nat) :
    (!f && decide (3 ≤ min 255 (n + 1))) = true ↔ f = false ∧ 3 ≤ n + 1 := by
  have hthree : 3 ≤ min 255 (n + 1) ↔ 3 ≤ n + 1 := by omega
  rw [Bool.and_eq_true, decide_eq_true_eq, Bool.not_eq_true', hthree]

/-- A good round leaves ACQUISITION-FAULT's cause as it was unless it returns it (R3). -/
theorem faultAfter_good {f : Bool} {n : Nat} (h : ¬(f = true ∧ 10 ≤ n + 1)) :
    (f && decide (min 255 (n + 1) < 10)) = f := by
  cases f
  · rfl
  · have hlow : ¬10 ≤ n + 1 := fun hn => h ⟨rfl, hn⟩
    exact decide_eq_true (by omega)

/-- A discarded round leaves ACQUISITION-FAULT's cause as it was unless it raises it (R3). -/
theorem faultAfter_bad {f : Bool} {n : Nat} (h : ¬(f = false ∧ 3 ≤ n + 1)) :
    (f || decide (3 ≤ min 255 (n + 1))) = f := by
  cases f
  · have hlow : ¬3 ≤ n + 1 := fun hn => h ⟨rfl, hn⟩
    exact decide_eq_false (by omega)
  · rfl

theorem takeRound_good {r : BitVec 12} (h : 2007 ≤ r.toNat) (h' : r.toNat ≤ 2089) (v : Six (BitVec 12)) (s : State) :
    takeRound v r s =
      let u := { s with level := s.level.goodRound v r.toNat }
      if s.level.acquisitionFault = true ∧ 10 ≤ s.level.good + 1 then returnKey ⟨.acquisitionFault, 0⟩ u else u := by
  unfold takeRound judgeRound
  dsimp only
  rw [if_pos ((goodReference_iff _).mpr ⟨h, h'⟩)]
  refine (ite_of_iff (tenGood_iff s.level.acquisitionFault s.level.good) rfl rfl).trans ?_
  split
  next hr =>
    have hoff : s.level.goodRound v r.toNat = { s.level.goodRound v r.toNat with acquisitionFault := false } := by
      rw [Level.goodRound, decide_eq_false (by omega), Bool.and_false]
    rw [hoff]
    rfl
  next hr =>
    have hkept : s.level.goodRound v r.toNat =
        { s.level.goodRound v r.toNat with acquisitionFault := s.level.acquisitionFault } := by
      rw [Level.goodRound, faultAfter_good hr]
    rw [hkept]
    rfl

theorem takeRound_bad {r : BitVec 12} (h : r.toNat < 2007 ∨ 2089 < r.toNat) (v : Six (BitVec 12)) (s : State) :
    takeRound v r s =
      let u := { s with level := s.level.badRound v r.toNat }
      if s.level.acquisitionFault = false ∧ 3 ≤ s.level.discarded + 1
        then raise ⟨.acquisitionFault, 0⟩ .critical (bytes2 r.toNat) u else u := by
  unfold takeRound judgeRound
  dsimp only
  rw [if_neg (by rw [goodReference_iff]; omega)]
  refine (ite_of_iff (threeBad_iff s.level.acquisitionFault s.level.discarded) rfl rfl).trans ?_
  split
  next hr =>
    have hon : s.level.badRound v r.toNat = { s.level.badRound v r.toNat with acquisitionFault := true } := by
      rw [Level.badRound, decide_eq_true (by omega), Bool.or_true]
    rw [hon]
    rfl
  next hr =>
    have hkept : s.level.badRound v r.toNat =
        { s.level.badRound v r.toNat with acquisitionFault := s.level.acquisitionFault } := by
      rw [Level.badRound, faultAfter_bad hr]
    rw [hkept]
    rfl

/-- A channel after a sample of a good round, by the sample's range (R4). -/
theorem judge_eq (x : Nat) (c : Channel) : c.judge x =
    { c with
      raw := x
      sample := if x ≤ 654 then .broken else if x ≤ 818 then .under else if x ≤ 4079 then .valid else .over
      sum := c.sum +
        if 819 ≤ x ∧ x ≤ 4079 then min 16000 (c.offset + (x - 819) * c.span / 3276)
        else if 655 ≤ x ∧ x ≤ 818 then c.offset else 0
      count := c.count + if 655 ≤ x ∧ x ≤ 4079 then 1 else 0 } := by
  rcases Nat.lt_or_ge x 655 with hb | hb
  · have hs : sampleStatus x = .broken := by simp [sampleStatus, hb]
    simp [Channel.judge, scaled?, hs, show x ≤ 654 by omega, show ¬819 ≤ x by omega, show ¬655 ≤ x by omega]
  rcases Nat.lt_or_ge x 819 with hu | hu
  · have hs : sampleStatus x = .under := by simp [sampleStatus, show ¬x < 655 by omega, hu]
    simp [Channel.judge, scaled?, hs, show ¬x ≤ 654 by omega, show x ≤ 818 by omega, show ¬819 ≤ x by omega,
      show 655 ≤ x by omega, show x ≤ 4079 by omega]
  rcases Nat.lt_or_ge x 4080 with hv | hv
  · have hs : sampleStatus x = .valid := by
      simp [sampleStatus, show ¬x < 655 by omega, show ¬x < 819 by omega, hv]
    simp [Channel.judge, scaled?, hs, show ¬x ≤ 654 by omega, show ¬x ≤ 818 by omega, show 819 ≤ x by omega,
      show 655 ≤ x by omega, show x ≤ 4079 by omega]
  · have hs : sampleStatus x = .over := by
      simp [sampleStatus, show ¬x < 655 by omega, show ¬x < 819 by omega, show ¬x < 4080 by omega]
    simp [Channel.judge, scaled?, hs, show ¬x ≤ 654 by omega, show ¬x ≤ 818 by omega, show ¬x ≤ 4079 by omega]

/-- What a round leaves to the end of its event, in the parts that the statement speaks of. -/
theorem conclude_parts {u : State} {l : Level} {s : State} (h : EdgeFrame { s with level := l } u) :
    (conclude u).level = l ∧ (conclude u).balance = s.balance ∧ (conclude u).store = s.store ∧
      (conclude u).clock = s.clock := by
  have hc := conclude_frame u
  exact ⟨by rw [hc.level, h.level], by rw [hc.balance, h.balance], by rw [hc.store, h.store], by rw [hc.clock, h.clock]⟩

theorem exec_round {s : State} {v : Six (BitVec 12)} {r : BitVec 12} {l : Level} {u : State}
    (ht : s.level.roundTimer = some 0) (hp : l.rounds < 10 * l.periodSecs)
    (hu : takeRound v r s = u) (hf : EdgeFrame { s with level := l } u) :
    exec (.roundComplete v r) s = .next (conclude u) := by
  refine exec_due (congrArg some ?_) (timerDue_on ht)
  have hlast : periodComplete u = false := decide_eq_false (by rw [hf.level]; exact Nat.not_le_of_lt hp)
  show (if periodComplete (takeRound v r s) = true then _ else takeRound v r s) = u
  rw [hu, hlast]
  rfl

/-- Settles O14. -/
theorem roundsAccumulate : Obligations.RoundsAccumulate := by
  refine ⟨fun s v r ht hp h h' => ?_, fun s v r ht hp h => ?_⟩
  · have hf : EdgeFrame { s with level := s.level.goodRound v r.toNat } (takeRound v r s) := by
      rw [takeRound_good h h']
      dsimp only
      split
      · exact returnKey_frame _ _
      · exact EdgeFrame.refl _
    obtain ⟨hl, hb, hst, hk⟩ := conclude_parts hf
    refine ⟨_, exec_round ht (by exact hp) rfl hf, fun n => ?_, ?_, hb, hst, hk, ?_⟩
    · rw [hl]
      exact (Six.get_gen _ n).trans (judge_eq _ _)
    · rw [hl]
      rfl
    · rw [hl, takeRound_good h h']
  · have hf : EdgeFrame { s with level := s.level.badRound v r.toNat } (takeRound v r s) := by
      rw [takeRound_bad h]
      dsimp only
      split
      · exact raise_frame _ _ _ _
      · exact EdgeFrame.refl _
    obtain ⟨hl, hb, hst, hk⟩ := conclude_parts hf
    refine ⟨_, exec_round ht (by exact hp) rfl hf, fun n => ?_, ?_, hb, hst, hk, ?_⟩
    · rw [hl]
      exact Six.get_gen _ n
    · rw [hl]
      rfl
    · rw [hl, takeRound_bad h]

end Sys2Proof.Machine
end


section
/-!
SUPPORT. Station Balance: the station computation stage by stage, the inflow class, the weirs and their spills (O16 to
O18).
-/

namespace Sys2Proof.Machine

open Host (Outcome)

/-! A table of rising points -/

theorem rising_le {l : Nat → Nat} {n : Nat} (h : ∀ j, j < n → l j < l (j + 1)) {i j : Nat} (hij : i ≤ j) (hj : j ≤ n) :
    l i ≤ l j := by
  obtain ⟨d, rfl⟩ := Nat.exists_eq_add_of_le hij
  induction d with
  | zero => exact Nat.le_refl _
  | succ d ih => exact Nat.le_trans (ih (Nat.le_add_right i d) (by omega)) (Nat.le_of_lt (h (i + d) (by omega)))

/-- The one segment of a rising table that holds a value. -/
theorem find_segment {l : Nat → Nat} {n i x : Nat} (h : ∀ j, j < n → l j < l (j + 1)) (hi : i < n) (hlo : l i ≤ x)
    (hhi : x < l (i + 1)) : (List.range n).find? (fun i => l i ≤ x && x < l (i + 1)) = some i := by
  refine List.find?_range_eq_some.mpr ⟨by simp [hlo, hhi], List.mem_range.mpr hi, fun j hj => ?_⟩
  have hle : l (j + 1) ≤ x := Nat.le_trans (rising_le h (by omega) (by omega)) hlo
  simp [Nat.not_lt.mpr hle]

theorem find_noSegment {l : Nat → Nat} {n x : Nat} (h : ∀ j, j < n → l j < l (j + 1)) (hx : l n ≤ x) :
    (List.range n).find? (fun i => l i ≤ x && x < l (i + 1)) = none := by
  refine List.find?_range_eq_none.mpr fun j hj => ?_
  have hle : l (j + 1) ≤ x := Nat.le_trans (rising_le h (by omega) (by omega)) hx
  simp [Nat.not_lt.mpr hle]

section Volume

variable {c : Settings} {level : Nat} (h : ∀ j, j < 7 → c.tableLevel j < c.tableLevel (j + 1))
include h

theorem volumeAt_segment {i : Nat} (hi : i < 7) (hlo : c.tableLevel i ≤ level) (hhi : level < c.tableLevel (i + 1)) :
    c.volumeAt level = (c.segmentVolume i level, false) := by
  have hfirst : ¬level < c.tableLevel 0 := Nat.not_lt.mpr (Nat.le_trans (rising_le h (Nat.zero_le i) (by omega)) hlo)
  have hlast : ¬c.tableLevel 7 < level := Nat.not_lt.mpr
    (Nat.le_trans (Nat.le_of_lt hhi) (rising_le h (by omega : i + 1 ≤ 7) (Nat.le_refl 7)))
  unfold Settings.volumeAt
  rw [if_neg hfirst, if_neg hlast, show [0, 1, 2, 3, 4, 5, 6] = List.range 7 from rfl, find_segment h hi hlo hhi]

theorem volumeAt_top (ht : level = c.tableLevel 7) : c.volumeAt level = (c.tableVolume 7, false) := by
  subst ht
  have hfirst : ¬c.tableLevel 7 < c.tableLevel 0 := Nat.not_lt.mpr (rising_le h (Nat.zero_le 7) (Nat.le_refl 7))
  unfold Settings.volumeAt
  rw [if_neg hfirst, if_neg (Nat.lt_irrefl _), show [0, 1, 2, 3, 4, 5, 6] = List.range 7 from rfl,
    find_noSegment h (Nat.le_refl _)]

theorem volumeAt_above (ht : c.tableLevel 7 < level) : c.volumeAt level = (c.tableVolume 7, true) := by
  have hfirst : ¬level < c.tableLevel 0 := by
    have := rising_le h (Nat.zero_le 7) (Nat.le_refl 7)
    omega
  unfold Settings.volumeAt
  rw [if_neg hfirst, if_pos ht]

end Volume

theorem volumeAt_below {c : Settings} {level : Nat} (h : level < c.tableLevel 0) :
    c.volumeAt level = (c.tableVolume 0, false) := if_pos h

/-! A pump's curve (R21) -/

section Curve

variable {c : Settings} {p : Ix6} {head : Nat} (h : ∀ j, j < 4 → c.curveHead p j < c.curveHead p (j + 1))
include h

theorem flowAt_segment {i : Nat} (hi : i < 4) (hlo : c.curveHead p i ≤ head) (hhi : head < c.curveHead p (i + 1)) :
    c.flowAt p head = c.segmentFlow p i head := by
  have hfirst : ¬head < c.curveHead p 0 := Nat.not_lt.mpr (Nat.le_trans (rising_le h (Nat.zero_le i) (by omega)) hlo)
  unfold Settings.flowAt
  rw [if_neg hfirst, show [0, 1, 2, 3] = List.range 4 from rfl, find_segment h hi hlo hhi]

theorem flowAt_last (hl : c.curveHead p 4 ≤ head) : c.flowAt p head = c.curveFlow p 4 := by
  have hfirst : ¬head < c.curveHead p 0 :=
    Nat.not_lt.mpr (Nat.le_trans (rising_le h (Nat.zero_le 4) (Nat.le_refl 4)) hl)
  unfold Settings.flowAt
  rw [if_neg hfirst, show [0, 1, 2, 3] = List.range 4 from rfl, find_noSegment h hl]

end Curve

theorem flowAt_first {c : Settings} {p : Ix6} {head : Nat} (h : head < c.curveHead p 0) :
    c.flowAt p head = c.curveFlow p 0 := if_pos h

/-- A fall's part, rounded down and taken away, is the negative quotient rounded toward zero and added. -/
theorem fall_tdiv {f g x d : Nat} (hfg : g ≤ f) (hx : x ≤ d) :
    ((f - x * (f - g) / d : Nat) : Int) = (f : Int) + ((x : Int) * ((g : Int) - f)).tdiv d := by
  have hpart : x * (f - g) / d ≤ f :=
    Nat.le_trans (Nat.div_le_of_le_mul (Nat.mul_le_mul_right _ hx)) (Nat.sub_le f g)
  have hneg : (x : Int) * ((g : Int) - f) = -((x * (f - g) : Nat) : Int) := by
    rw [Int.natCast_mul, Int.natCast_sub hfg, ← Int.mul_neg, Int.neg_sub]
  rw [hneg, Int.neg_tdiv, ← Int.ofNat_tdiv, Int.natCast_sub hpart]
  rfl

theorem stageFlow_pump (s : State) (p : Ix6) : (stageFlow s).pump p = { s.pump p with
    flow := if (s.pump p).feedback.state then s.running.flowAt p s.balance.head else 0
    headLimited := s.running.headLimits p s.balance.head } := Six.get_gen _ p

/-! The stages after the inflow -/

/-- What the stages after the inflow leave of a station computation. -/
structure SameFlows (s t : State) : Prop where
  pumps : t.pumps = s.pumps
  volume : t.balance.volume = s.balance.volume
  above : t.balance.aboveTable = s.balance.aboveTable
  head : t.balance.head = s.balance.head
  headStale : t.balance.headStale = s.balance.headStale
  vPrev : t.balance.vPrev = s.balance.vPrev
  inflow : t.balance.inflow = s.balance.inflow
  inflowStale : t.balance.inflowStale = s.balance.inflowStale

theorem SameFlows.trans {s t u : State} (h : SameFlows s t) (k : SameFlows t u) : SameFlows s u :=
  ⟨k.pumps.trans h.pumps, k.volume.trans h.volume, k.above.trans h.above, k.head.trans h.head,
    k.headStale.trans h.headStale, k.vPrev.trans h.vPrev, k.inflow.trans h.inflow, k.inflowStale.trans h.inflowStale⟩

theorem SameFlows.refl (s : State) : SameFlows s s := ⟨rfl, rfl, rfl, rfl, rfl, rfl, rfl, rfl⟩

theorem setFlag_sameFlows (f : Flag) (s : State) : SameFlows s (setFlag f s) := ⟨rfl, rfl, rfl, rfl, rfl, rfl, rfl, rfl⟩

theorem wakeLink_sameFlows (b : Bool) (s : State) : SameFlows s (wakeLink b s) := by
  unfold wakeLink
  split <;> exact ⟨rfl, rfl, rfl, rfl, rfl, rfl, rfl, rfl⟩

theorem stageClass_sameFlows (p : Nat) (s : State) : SameFlows s (stageClass p s) := by
  unfold stageClass
  dsimp only
  split
  · exact .refl s
  · split <;> exact ⟨rfl, rfl, rfl, rfl, rfl, rfl, rfl, rfl⟩

theorem stageWeir_sameFlows (w : Ix2) (s : State) : SameFlows s (stageWeir w s) := by
  unfold stageWeir
  split <;> exact ⟨rfl, rfl, rfl, rfl, rfl, rfl, rfl, rfl⟩

theorem stageSpill_sameFlows (p : Nat) (s : State) : SameFlows s (stageSpill p s) := by
  unfold stageSpill
  dsimp only
  split <;> exact ⟨rfl, rfl, rfl, rfl, rfl, rfl, rfl, rfl⟩

/-- The stages in the order of R18, with the wake of R187. -/
theorem balancePeriodEnd_eq (p : Nat) (s : State) :
    let u := stageClass p (stageInflow p (stageFlow (stageHead (stageVolume s))))
    balancePeriodEnd p s = stageSpill p (stageWeir .i2 (stageWeir .i1
      (if s.balance.cls = .dry ∧ u.balance.cls ≠ .dry then wakeLink true u else u))) := by
  intro u
  refine congrArg (fun x => stageSpill p (stageWeir .i2 (stageWeir .i1 x))) ?_
  exact ite_of_iff (by rw [Bool.and_eq_true, decide_eq_true_eq, decide_eq_true_eq]) rfl rfl

/-- The station computation's volume, head, flows and inflow are those of its first four stages. -/
theorem balancePeriodEnd_sameFlows (p : Nat) (s : State) :
    SameFlows (stageInflow p (stageFlow (stageHead (stageVolume s)))) (balancePeriodEnd p s) := by
  rw [balancePeriodEnd_eq]
  refine (stageClass_sameFlows p _).trans (SameFlows.trans ?_
    (((stageWeir_sameFlows .i1 _).trans (stageWeir_sameFlows .i2 _)).trans (stageSpill_sameFlows p _)))
  split
  · exact wakeLink_sameFlows true _
  · exact .refl _

/-! The first four stages -/

theorem stageVolume_known {s : State} {v : Nat} (h : s.level.wellLevel = some v) : stageVolume s =
    s.onBalance fun b => { b with volume := some (s.running.volumeAt v).1, aboveTable := (s.running.volumeAt v).2 } := by
  unfold stageVolume
  rw [h]

theorem stageVolume_unknown {s : State} (h : s.level.wellLevel = none) : stageVolume s =
    s.onBalance fun b => { b with volume := none, aboveTable := false } := by
  unfold stageVolume
  rw [h]

theorem stageHead_known {s : State} {v : Nat} (h : s.level.wellLevel = some v) : stageHead s =
    s.onBalance fun b => { b with
      head := dischargeLevel s - v, headStale := decide (s.level.channels.a6.period ≠ .valid) } := by
  unfold stageHead
  rw [h]

theorem stageHead_unknown {s : State} (h : s.level.wellLevel = none) : stageHead s =
    s.onBalance fun b => { b with headStale := true } := by
  unfold stageHead
  rw [h]

theorem stageInflow_known {s : State} {v v0 : Nat} (p : Nat) (h : s.balance.volume = some v)
    (h0 : s.balance.vPrev = some v0) : stageInflow p s =
    s.onBalance fun b => { b with vPrev := some v, inflow := inflowOf v0 v p (sumFlow s), inflowStale := false } := by
  unfold stageInflow
  rw [h, h0]

theorem stageInflow_first {s : State} {v : Nat} (p : Nat) (h : s.balance.volume = some v)
    (h0 : s.balance.vPrev = none) : stageInflow p s =
    s.onBalance fun b => { b with vPrev := some v, inflowStale := true } := by
  unfold stageInflow
  rw [h, h0]

theorem stageInflow_unknown {s : State} (p : Nat) (h : s.balance.volume = none) : stageInflow p s =
    s.onBalance fun b => { b with vPrev := none, inflowStale := true } := by
  unfold stageInflow
  rw [h]

/-- The state after the first three stages, with the well level known. -/
def State.flowed (s : State) (v : Nat) : State :=
  stageFlow (s.onBalance fun b => { b with
    volume := some (s.running.volumeAt v).1, aboveTable := (s.running.volumeAt v).2
    head := dischargeLevel s - v, headStale := decide (s.level.channels.a6.period ≠ .valid) })

theorem flowed_eq {s : State} {v : Nat} (h : s.level.wellLevel = some v) :
    stageFlow (stageHead (stageVolume s)) = s.flowed v := by
  rw [stageVolume_known h, stageHead_known (s := s.onBalance _) (v := v) h]
  rfl

theorem inflowOf_eq (v0 v p q : Nat) : (inflowOf v0 v p q : Int) =
    min 65535 (max 0 (((v : Int) - (v0 : Int)).tdiv (p : Int) + (q : Int))) := by
  unfold inflowOf max16
  generalize ((v : Int) - (v0 : Int)).tdiv (p : Int) + (q : Int) = x
  omega

/-- The first four stages leave the volume, its flag and the head that the first two form. -/
theorem stageInflow_parts (p : Nat) (s : State) : (stageInflow p s).balance.volume = s.balance.volume ∧
    (stageInflow p s).balance.aboveTable = s.balance.aboveTable ∧ (stageInflow p s).balance.head = s.balance.head ∧
    (stageInflow p s).balance.headStale = s.balance.headStale := by
  unfold stageInflow
  split <;> exact ⟨rfl, rfl, rfl, rfl⟩

/-- Volume, head and inflow at a period end with a valid well level (R19, R20, R23, R24). -/
theorem computation_known {s : State} {v : Nat} (p : Nat) (h : s.level.wellLevel = some v) :
    let t := balancePeriodEnd p s
    t.balance.volume = some (s.running.volumeAt v).1 ∧ t.balance.aboveTable = (s.running.volumeAt v).2 ∧
    t.balance.head = dischargeLevel s - v ∧
    t.balance.headStale = decide (s.level.channels.a6.period ≠ .valid) ∧
    (∀ v0, s.balance.vPrev = some v0 → t.balance.inflowStale = false ∧ t.balance.vPrev = t.balance.volume ∧
      t.balance.inflow = inflowOf v0 (s.running.volumeAt v).1 p (sumFlow t)) ∧
    (s.balance.vPrev = none → t.balance.inflowStale = true ∧ t.balance.inflow = s.balance.inflow ∧
      t.balance.vPrev = t.balance.volume) := by
  intro t
  have hs := balancePeriodEnd_sameFlows p s
  rw [flowed_eq h] at hs
  obtain ⟨hv, ha, hh, hst⟩ := stageInflow_parts p (s.flowed v)
  refine ⟨hs.volume.trans hv, hs.above.trans ha, hs.head.trans hh, hs.headStale.trans hst, fun v0 h0 => ?_, fun h0 => ?_⟩
  · have hin := stageInflow_known (s := s.flowed v) p rfl h0
    rw [hin] at hs
    refine ⟨hs.inflowStale, hs.vPrev.trans hs.volume.symm, hs.inflow.trans ?_⟩
    exact congrArg (fun ps : Six Pump => inflowOf v0 (s.running.volumeAt v).1 p (ps.toList.map fun p => p.flow).sum)
      hs.pumps.symm
  · have hin := stageInflow_first (s := s.flowed v) p rfl h0
    rw [hin] at hs
    exact ⟨hs.inflowStale, hs.inflow, hs.vPrev.trans hs.volume.symm⟩

/-- The same with the well level UNKNOWN (R19, R20, R24). -/
theorem computation_unknown {s : State} (p : Nat) (h : s.level.wellLevel = none) :
    let t := balancePeriodEnd p s
    t.balance.volume = none ∧ t.balance.aboveTable = false ∧ t.balance.head = s.balance.head ∧
    t.balance.headStale = true ∧ t.balance.vPrev = none ∧ t.balance.inflow = s.balance.inflow ∧
    t.balance.inflowStale = true := by
  intro t
  have hs := balancePeriodEnd_sameFlows p s
  rw [stageVolume_unknown h, stageHead_unknown (s := s.onBalance _) h, stageInflow_unknown (s := stageFlow _) p rfl] at hs
  exact ⟨hs.volume, hs.above, hs.head, hs.headStale, hs.vPrev, hs.inflow, hs.inflowStale⟩

/-- Settles O16. -/
theorem stationComputation : Obligations.StationComputation := by
  refine ⟨fun s p level hw hrise => ?_, fun s p hw => computation_unknown p hw, fun s p hcurve => ?_,
    fun s p => balancePeriodEnd_eq p s⟩
  · obtain ⟨hv, ha, hh, hst, hnext, hfirst⟩ := computation_known p hw
    have hvol : ∀ x : Nat × Bool, s.running.volumeAt level = x →
        (balancePeriodEnd p s).balance.volume = some x.1 ∧ (balancePeriodEnd p s).balance.aboveTable = x.2 :=
      fun x hx => by rw [hv, ha, hx]; exact ⟨rfl, rfl⟩
    refine ⟨fun i hi hlo hhi => hvol _ (volumeAt_segment hrise hi hlo hhi), fun hb => hvol _ (volumeAt_below hb),
      fun ht => hvol _ (volumeAt_top hrise ht), fun ht => hvol _ (volumeAt_above hrise ht), ⟨hh, ?_⟩, fun v0 v1 h0 h1 => ?_,
      hfirst⟩
    · rw [hst, decide_eq_true_eq]
    · obtain ⟨hcur, hprev, hin⟩ := hnext v0 h0
      have hv1 : (s.running.volumeAt level).1 = v1 := Option.some.inj (hv.symm.trans h1)
      refine ⟨hcur, hprev.trans h1, ?_⟩
      rw [hin, inflowOf_eq, hv1]
  · have hrise : ∀ j, j < 4 → s.running.curveHead p j < s.running.curveHead p (j + 1) := fun j hj => (hcurve j hj).1
    rw [stageFlow_pump]
    refine ⟨fun hf => by simp [hf], fun hf hb => ?_, fun hf ht => ?_, fun hf i hi hlo hhi => ?_, decide_eq_true_iff⟩
    · simp [hf, flowAt_first hb]
    · simp [hf, flowAt_last hrise ht]
    · dsimp only
      rw [hf, if_pos rfl, flowAt_segment hrise hi hlo hhi, Settings.segmentFlow,
        fall_tdiv (hcurve i hi).2 (Nat.sub_le_sub_right (Nat.le_of_lt hhi) _), Int.natCast_sub hlo,
        Int.natCast_sub (Nat.le_of_lt (hrise i hi))]

/-! The inflow class (R25 to R27) -/

theorem stageClass_stale {s : State} (p : Nat) (h : s.balance.inflowStale = true) : stageClass p s = s := if_pos h

theorem stageClass_current {s : State} (p : Nat) (h : s.balance.inflowStale = false) :
    let r := classAfter s.running p s.balance.inflow s.balance.cls s.balance.hold
    let u := s.onBalance fun b => { b with cls := r.1, hold := r.2 }
    stageClass p s = if r.1 = s.balance.cls then u else setFlag .balance u := by
  unfold stageClass
  rw [h]
  rfl

theorem stageClass_class {s : State} (p : Nat) (h : s.balance.inflowStale = false) :
    ((stageClass p s).balance.cls, (stageClass p s).balance.hold) =
      classAfter s.running p s.balance.inflow s.balance.cls s.balance.hold := by
  rw [stageClass_current p h]
  split <;> rfl

theorem classAfter_dry (c : Settings) (p i hold : Nat) : classAfter c p i .dry hold =
    if c.stormOn ≤ i then (.storm, 0) else if c.wetOn ≤ i then (.wet, 0) else (.dry, 0) := by
  unfold classAfter riseOf fallOf
  by_cases hs : c.stormOn ≤ i
  · simp [hs]
  · by_cases hw : c.wetOn ≤ i <;> simp [hs, hw]

theorem classAfter_wet (c : Settings) (p i hold : Nat) : classAfter c p i .wet hold =
    if c.stormOn ≤ i then (.storm, 0) else if c.wetOff < i then (.wet, 0)
    else if c.classHold ≤ min 65535 (hold + p) then (.dry, 0) else (.wet, min 65535 (hold + p)) := by
  unfold classAfter riseOf fallOf
  by_cases hs : c.stormOn ≤ i
  · simp [hs]
  · by_cases hw : c.wetOff < i
    · simp [hs, hw, Nat.not_le.mpr hw]
    · simp only [hs, hw, if_false, Nat.not_lt.mp hw, if_true]
      rfl

theorem classAfter_storm (c : Settings) (p i hold : Nat) : classAfter c p i .storm hold =
    if c.stormOff < i then (.storm, 0)
    else if c.classHold ≤ min 65535 (hold + p) then (.wet, 0) else (.storm, min 65535 (hold + p)) := by
  unfold classAfter riseOf fallOf
  by_cases hs : c.stormOff < i
  · simp [hs, Nat.not_le.mpr hs]
  · simp only [hs, if_false, Nat.not_lt.mp hs, if_true]
    rfl

theorem stageClass_inflow (p : Nat) (s : State) : (stageClass p s).balance.inflow = s.balance.inflow :=
  (stageClass_sameFlows p s).inflow

theorem stormEdge_same {a b : Balance} (h : a.cls = .storm ↔ b.cls = .storm) : stormEdge a b = [] := by
  rw [stormEdge, decide_eq_decide.mpr h, causeEdge_same]

theorem stormEdge_rise {a b : Balance} (ha : a.cls ≠ .storm) (hb : b.cls = .storm) :
    stormEdge a b = [⟨.storm, 0, some (bytes2 b.inflow)⟩] := by
  rw [stormEdge, decide_eq_false ha, decide_eq_true hb, causeEdge_rise]

theorem stormEdge_fall {a b : Balance} (ha : a.cls = .storm) (hb : b.cls ≠ .storm) :
    stormEdge a b = [⟨.storm, 0, none⟩] := by
  rw [stormEdge, decide_eq_true ha, decide_eq_false hb, causeEdge_fall]

/-- Nothing else of the balance moves, and a class that moves sets the BALANCE flag (R35). -/
theorem stageClass_eq {s : State} (p : Nat) (h : s.balance.inflowStale = false) :
    let t := stageClass p s
    let u := s.onBalance fun b => { b with cls := t.balance.cls, hold := t.balance.hold }
    (t.balance.cls = s.balance.cls → t = u) ∧ (t.balance.cls ≠ s.balance.cls → t = setFlag .balance u) := by
  have hc : (stageClass p s).balance.cls = (classAfter _ p _ _ _).1 := congrArg Prod.fst (stageClass_class p h)
  have hh : (stageClass p s).balance.hold = (classAfter _ p _ _ _).2 := congrArg Prod.snd (stageClass_class p h)
  have hst := stageClass_current p h
  generalize classAfter s.running p s.balance.inflow s.balance.cls s.balance.hold = r at hc hh hst
  intro t u
  have hu : u = s.onBalance fun b => { b with cls := r.1, hold := r.2 } := by rw [← hc, ← hh]
  exact ⟨fun heq => hst.trans ((if_pos (hc.symm.trans heq)).trans hu.symm),
    fun hne => hst.trans ((if_neg fun k => hne (hc.trans k)).trans (congrArg (setFlag .balance) hu.symm))⟩

/-- Settles O17. -/
theorem inflowClassMoves : Obligations.InflowClassMoves := by
  refine ⟨fun s p h => stageClass_stale p h, fun s p h => ?_, fun s x => ⟨rfl, rfl⟩⟩
  have hcls := stageClass_class p h
  obtain ⟨hsame, hmoved⟩ := stageClass_eq p h
  refine ⟨fun hd => ?_, fun hw => ?_, fun hs => ?_, fun heq => ⟨hsame heq, stormEdge_same (by rw [heq])⟩,
    fun hne => ⟨hmoved hne, fun hs => ?_, fun hs => ?_, fun ht hs => ?_⟩⟩
  · exact hcls.trans (by rw [hd, classAfter_dry])
  · exact hcls.trans (by rw [hw, classAfter_wet])
  · exact hcls.trans (by rw [hs, classAfter_storm])
  · rw [stormEdge_rise (fun hb => hne (hs.trans hb.symm)) hs, stageClass_inflow]
  · exact stormEdge_fall hs fun ht => hne (ht.trans hs.symm)
  · exact stormEdge_same ⟨fun k => absurd k hs, fun k => absurd k ht⟩

/-! Weirs (R28 to R32) -/

/-- A root still to be grown by its lowest bits, the next of them half of b: below n's square root, and within b of it. -/
def RootWithin (n b r : Nat) : Prop := r * r ≤ n ∧ n < (r + b) * (r + b)

theorem rootBit_within {n b r : Nat} (h : RootWithin n (2 * b) r) : RootWithin n b (rootBit n r b) := by
  obtain ⟨hlo, hhi⟩ := h
  unfold rootBit
  split
  next hb => exact ⟨hb, by rw [Nat.add_assoc, ← Nat.two_mul]; exact hhi⟩
  next hb => exact ⟨hlo, Nat.lt_of_not_le hb⟩

theorem root_within {n : Nat} (h : n < 1024 * 1024) : RootWithin n 1 (root n) := by
  have hstart : RootWithin n (2 * 512) 0 := ⟨Nat.zero_le n, by omega⟩
  exact rootBit_within <| rootBit_within (b := 2) <| rootBit_within (b := 4) <| rootBit_within (b := 8) <|
    rootBit_within (b := 16) <| rootBit_within (b := 32) <| rootBit_within (b := 64) <| rootBit_within (b := 128) <|
    rootBit_within (b := 256) <| rootBit_within hstart

theorem root_le {n : Nat} (h : n < 1024 * 1024) : root n ≤ 1023 := by
  obtain ⟨hlo, -⟩ := root_within h
  exact Nat.le_of_lt_succ (Nat.mul_self_lt_mul_self_iff.mp (Nat.lt_of_le_of_lt hlo h))

theorem stageWeir_known {s : State} {w : Ix2} {level : Nat} (h : weirLevel? s w = some level) :
    stageWeir w s =
      let hd := min 4095 (level - s.running.crest w)
      let q := s.running.weirK w * hd * root (hd * 256) / 65536
      s.onBalance fun b => { b with weirs := b.weirs.modify w fun x => { x with
        head := hd, root := root (hd * 256), flow := min 65535 q
        status := if 65535 < q then .saturated else .current } } := by
  unfold stageWeir
  rw [h]
  rfl

theorem stageWeir_unknown {s : State} {w : Ix2} (h : weirLevel? s w = none) : stageWeir w s =
    s.onBalance fun b => { b with weirs := b.weirs.modify w fun x => { x with flow := 0, status := .notComputed } } := by
  unfold stageWeir
  rw [h]

theorem Two.get_modify_same {α : Type} (v : Two α) (i : Ix2) (f : α → α) : (v.modify i f).get i = f (v.get i) := by
  cases i <;> rfl

theorem Two.get_modify_other {α : Type} (v : Two α) {i j : Ix2} (h : j ≠ i) (f : α → α) :
    (v.modify i f).get j = v.get j := by
  rw [Two.get_modify, if_neg h]

theorem Two.modify_eq_const {α : Type} (v : Two α) (i : Ix2) (f : α → α) :
    v.modify i f = v.modify i fun _ => f (v.get i) := by
  cases i <;> rfl

/-- A weir's update of the balance, written as the weir it gives. -/
theorem onBalance_weir (s : State) (w : Ix2) (f : Weir → Weir) :
    (s.onBalance fun b => { b with weirs := b.weirs.modify w f }) =
      s.onBalance fun b => { b with weirs := b.weirs.modify w fun _ => f (s.balance.weirs.get w) } := by
  unfold State.onBalance
  dsimp only
  rw [Two.modify_eq_const]

theorem stageWeir_other (w : Ix2) (s : State) : stageWeir w s =
    s.onBalance fun b => { b with weirs := b.weirs.modify w fun _ => (stageWeir w s).balance.weirs.get w } := by
  cases h : weirLevel? s w with
  | none =>
    rw [stageWeir_unknown h]
    dsimp only [State.onBalance_balance]
    rw [Two.get_modify_same]
    exact onBalance_weir s w _
  | some level =>
    rw [stageWeir_known h]
    dsimp only [State.onBalance_balance]
    rw [Two.get_modify_same]
    exact onBalance_weir s w _

section Stage

variable (p sep : Nat) {x : Weir}

theorem weirStage_notComputed (h : x.status = .notComputed) : Weir.stage p sep x = { x with
    tally := { x.tally with incomplete := true }
    separation := if x.spill = .settling then none else x.separation } := by
  unfold Weir.stage Weir.moveSpill Tally.update
  rw [if_pos h, if_pos h]
  dsimp only
  split <;> rfl

theorem weirStage_still (h : x.status ≠ .notComputed) (hf : x.flow = 0) : Weir.stage p sep x = { x with
    spill := if x.spill = .dry then .dry else .settling
    separation := if x.spill = .dry then x.separation
      else if x.spill = .settling ∧ x.separation.isSome then x.separation else some (100 * sep) } := by
  unfold Weir.stage Weir.moveSpill Tally.update
  rw [if_neg h, if_pos hf, if_neg h]
  obtain ⟨_, _, flow, _, spill, separation, _⟩ := x
  dsimp only at hf ⊢
  subst hf
  cases spill
  case settling => cases separation <;> rfl
  case dry => rfl
  case spilling => rfl

theorem weirStage_flowing (h : x.status ≠ .notComputed) (hf : x.flow ≠ 0) : Weir.stage p sep x = { x with
    spill := .spilling
    separation := if x.spill = .settling then none else x.separation
    tally := { x.tally with
      volume := min 4294967295 (x.tally.volume + x.flow * p)
      seconds := min 4294967295 (x.tally.seconds + p)
      episodes := if x.spill = .dry then min 65535 (x.tally.episodes + 1) else x.tally.episodes
      peak := max x.tally.peak x.flow } } := by
  unfold Weir.stage Weir.moveSpill Tally.update
  rw [if_neg h, if_neg hf, if_neg h]
  obtain ⟨_, _, flow, _, spill, _, _⟩ := x
  obtain ⟨n, rfl⟩ := Nat.exists_eq_succ_of_ne_zero hf
  cases spill <;> rfl

end Stage

theorem weirNews_iff (x y : Weir) : weirNews x y = true ↔
    x.spill ≠ y.spill ∨ (x.tally.incomplete = false ∧ y.tally.incomplete = true) := by
  simp [weirNews]

theorem spillEdge_eq (w : Ix2) (x y : Weir) : spillEdge w x y =
    if x.spill = .dry ∧ y.spill = .spilling then [⟨.spilling, w.num, some (bytes2 y.tally.peak)⟩] else [] :=
  ite_of_iff (by rw [Bool.and_eq_true, decide_eq_true_eq, decide_eq_true_eq]) rfl rfl

theorem stageSpill_eq (p : Nat) (s : State) :
    let after := fun w => Weir.stage p s.running.separationTime (s.balance.weirs.get w)
    let u := s.onBalance fun b => { b with weirs := ⟨after .i1, after .i2⟩ }
    stageSpill p s = if weirNews (s.balance.weirs.get .i1) (after .i1) = true ∨
      weirNews (s.balance.weirs.get .i2) (after .i2) = true then setFlag .balance u else u := by
  intro after u
  refine ite_of_iff ?_ rfl rfl
  simp only [Ix2.all, List.any_cons, List.any_nil, Bool.or_false, Bool.or_eq_true]
  rfl

/-- A weir's separation timer expires (R31, R35). -/
theorem separationExpires_parts (w : Ix2) (s : State) : let t := conclude (separationExpires w s)
    t.balance = { s.balance with
      weirs := s.balance.weirs.modify w fun x => { x with spill := .dry, separation := none } } ∧
    t.level = s.level ∧ t.store = s.store ∧ t.clock = s.clock ∧ t.port.flags.has .balance = true := by
  have hr : EdgeFrame (setFlag .balance (s.onBalance fun b =>
      { b with weirs := b.weirs.modify w fun x => { x with spill := .dry, separation := none } })) (separationExpires w s) :=
    returnKey_frame _ _
  have hc := conclude_frame (separationExpires w s)
  have hflag := hc.flags .balance (hr.flags .balance (setFlag_has .balance _))
  exact ⟨hc.balance.trans hr.balance, hc.level.trans hr.level, hc.store.trans hr.store, hc.clock.trans hr.clock, hflag⟩

/-- Settles O18. -/
theorem weirsAndSpills : Obligations.WeirsAndSpills := by
  refine ⟨fun s w => ⟨fun level hl => ?_, fun hn => ?_, stageWeir_other w s⟩,
    fun p sep x => ⟨weirStage_notComputed p sep, weirStage_still p sep, weirStage_flowing p sep⟩,
    fun p s => ⟨?_, ?_⟩, fun s w ht hsp => ?_⟩
  · rw [stageWeir_known hl]
    dsimp only [State.onBalance_balance]
    rw [Two.get_modify_same]
    have hn : min 4095 (level - s.running.crest w) * 256 < 1024 * 1024 := by omega
    exact ⟨rfl, (root_within hn).1, (root_within hn).2, root_le hn⟩
  · rw [stageWeir_unknown hn]
    exact Two.get_modify_same _ _ _
  · dsimp only
    rw [stageSpill_eq]
    exact ite_of_iff (or_congr (weirNews_iff _ _) (weirNews_iff _ _)) rfl rfl
  · show spillEdge _ _ _ ++ (spillEdge _ _ _ ++ []) = _
    rw [List.append_nil, spillEdge_eq, spillEdge_eq]
    rfl
  · obtain ⟨hb, hl, hst, hk, hflag⟩ := separationExpires_parts w s
    refine ⟨conclude (separationExpires w s), exec_due rfl (timerDue_and_on ht (decide_eq_true hsp)), rfl, ?_⟩
    generalize conclude (separationExpires w s) = t at hb hl hst hk hflag ⊢
    refine ⟨?_, fun o ho => ?_, hflag, hl, hst, hk⟩
    · rw [hb]
      exact Two.get_modify_same _ _ _
    · rw [hb]
      exact Two.get_modify_other _ ho _

end Sys2Proof.Machine
end


section
/-!
SUPPORT. The port's phase and PROTOCOL mark, which no operation of the other blocks reads: an operation that a panel
command runs does the same before the command is taken and after it.
-/

namespace Sys2Proof.Machine

open Host (Outcome)

/-- The state with the port in a phase, the PROTOCOL mark standing so. -/
def State.facing (m : Bool) (ph : Phase) (s : State) : State := s.onPort fun p => { p with protocol := m, phase := ph }

/-- An operation neither reads nor moves the port's phase and PROTOCOL mark. -/
def PortBlind (f : State → State) : Prop := ∀ m ph s, f (s.facing m ph) = (f s).facing m ph

section Fields

variable (m : Bool) (ph : Phase) (s : State)

@[simp] theorem facing_clock : (s.facing m ph).clock = s.clock := rfl
@[simp] theorem facing_level : (s.facing m ph).level = s.level := rfl
@[simp] theorem facing_balance : (s.facing m ph).balance = s.balance := rfl
@[simp] theorem facing_duty : (s.facing m ph).duty = s.duty := rfl
@[simp] theorem facing_power : (s.facing m ph).power = s.power := rfl
@[simp] theorem facing_table : (s.facing m ph).table = s.table := rfl
@[simp] theorem facing_link : (s.facing m ph).link = s.link := rfl
@[simp] theorem facing_running : (s.facing m ph).running = s.running := rfl
@[simp] theorem facing_pump (p : Ix6) : (s.facing m ph).pump p = s.pump p := rfl
@[simp] theorem facing_screen (n : Ix2) : (s.facing m ph).screen n = s.screen n := rfl

theorem onTable_facing (f : Table → Table) : (s.facing m ph).onTable f = (s.onTable f).facing m ph := rfl
theorem onAnn_facing (f : Annunciator → Annunciator) : (s.facing m ph).onAnn f = (s.onAnn f).facing m ph := rfl
theorem onPump_facing (p : Ix6) (f : Pump → Pump) : (s.facing m ph).onPump p f = (s.onPump p f).facing m ph := rfl

theorem taken_facing (code : Byte) (ps : List Byte) :
    s.taken code ps = s.facing false (if ps = [] then s.port.phase else .parameters code ps.dropLast) := rfl

theorem reply_facing (c : ReplyCode) (bs : List Byte) :
    reply c bs (s.facing false ph) = s.answered (byte c.code :: bs) := rfl

end Fields

theorem PortBlind.reply {f : State → State} (h : PortBlind f) (r : ReplyCode) (bs : List Byte) (code : Byte)
    (ps : List Byte) (s : State) : reply r bs (f (s.taken code ps)) = (f s).answered (byte r.code :: bs) := by
  rw [taken_facing, h _ _ s, reply_facing]

/-- An operation of a panel command that no phase reaches, with its answer and the end of its event. -/
theorem settleReply_blind {f : State → State} (h : PortBlind f) (r : ReplyCode) (code : Byte) (ps : List Byte)
    (s : State) : settleReply (r, f (s.taken code ps)) = conclude ((f s).answered [byte r.code]) :=
  congrArg conclude (h.reply r [] code ps s)

theorem PortBlind.comp {f g : State → State} (hf : PortBlind f) (hg : PortBlind g) : PortBlind fun s => g (f s) :=
  fun m ph s => (congrArg g (hf m ph s)).trans (hg m ph _)

theorem PortBlind.id : PortBlind fun s => s := fun _ _ _ => rfl

theorem PortBlind.ite {f g : State → State} {c : State → Prop} [DecidablePred c] (hc : ∀ m ph s, c (s.facing m ph) = c s)
    (hf : PortBlind f) (hg : PortBlind g) : PortBlind fun s => if c s then f s else g s := by
  intro m ph s
  dsimp only
  by_cases h : c s
  · rw [if_pos h, if_pos (by rw [hc]; exact h), hf]
  · rw [if_neg h, if_neg (by rw [hc]; exact h), hg]

theorem portBlind_foldl {α : Type} (f : State → α → State) (h : ∀ a, PortBlind fun s => f s a) (l : List α) :
    PortBlind fun s => l.foldl f s := by
  intro m ph s
  induction l generalizing s with
  | nil => rfl
  | cons a l ih => exact (congrArg (List.foldl f · l) (h a m ph s)).trans (ih _)

/-! The Condition Table -/

theorem setFlag_blind (f : Flag) : PortBlind (setFlag f) := fun _ _ _ => by cases f <;> rfl

theorem wakeLink_blind (b : Bool) : PortBlind (wakeLink b) := fun m ph s => by
  unfold wakeLink
  rw [facing_link]
  split <;> rfl

theorem enteredRaised_blind (r : Record) : PortBlind (enteredRaised r) := fun m ph s => by
  unfold enteredRaised
  dsimp only
  rw [facing_running, onAnn_facing]
  split
  · split
    · exact wakeLink_blind ..
    · exact wakeLink_blind ..
  · split <;> rfl

theorem changeRecord_blind (i : Nat) (f : Record → Record) : PortBlind (changeRecord i f) := fun m ph s => by
  unfold changeRecord
  rw [facing_table]
  split <;> rfl

theorem seat_blind (i : Nat) (k : Key) (sev : Severity) (x : List Byte) (first : Stamp) :
    PortBlind (seat i k sev x first) := fun m ph s => by
  unfold seat
  dsimp only
  rw [facing_table, facing_clock, onTable_facing, setFlag_blind, enteredRaised_blind]

theorem raiseSeated_blind (i : Nat) (sev : Severity) (x : List Byte) : PortBlind (raiseSeated i sev x) := fun m ph s => by
  unfold raiseSeated
  rw [facing_table]
  split
  · rfl
  · dsimp only
    rw [changeRecord_blind, enteredRaised_blind]
    split <;> rfl

theorem raiseSaturated_blind : PortBlind raiseSaturated := fun m ph s => by
  unfold raiseSaturated
  dsimp only
  rw [facing_table, raiseSeated_blind, facing_clock, seat_blind]
  split <;> rfl

theorem countSuppression_blind (sev : Severity) : PortBlind (countSuppression sev) := fun m ph s => by
  unfold countSuppression
  dsimp only
  rw [facing_table, onTable_facing]
  split
  · split
    · rfl
    · exact changeRecord_blind ..
  · exact raiseSaturated_blind ..

theorem setWaiting_blind (l : List Waiting) : PortBlind (setWaiting l) := fun m ph s => by
  unfold setWaiting
  rw [facing_table]
  split <;> rfl

theorem serveWaiting_blind (n : Nat) : PortBlind (serveWaiting n) := fun m ph s => by
  induction n generalizing s with
  | zero => rfl
  | succ n ih =>
    unfold serveWaiting
    rw [facing_table]
    split
    · rw [setWaiting_blind, seat_blind, ih]
    · rfl

theorem serve_blind : PortBlind serve := fun m ph s => serveWaiting_blind _ m ph s

theorem raise_blind (k : Key) (sev : Severity) (x : List Byte) : PortBlind (raise k sev x) := fun m ph s => by
  have hcount : countRaise (s.facing m ph) = (countRaise s).facing m ph := rfl
  unfold raise
  rw [hcount]
  dsimp only
  rw [facing_table, facing_clock]
  split
  · exact raiseSeated_blind ..
  · split
    · rw [setWaiting_blind, countSuppression_blind]
    · split
      · exact seat_blind ..
      · rw [setWaiting_blind, countSuppression_blind]

theorem returnKey_blind (k : Key) : PortBlind (returnKey k) := fun m ph s => by
  unfold returnKey
  rw [facing_table]
  split
  · split
    · exact changeRecord_blind ..
    · dsimp only
      rw [changeRecord_blind, serve_blind]
      split <;> rfl
    · rfl
  · exact setWaiting_blind ..

theorem unshelveSlot_blind (i : Nat) : PortBlind (unshelveSlot i) := fun m ph s => by
  unfold unshelveSlot
  rw [facing_table]
  split
  · rfl
  · dsimp only
    rw [changeRecord_blind, facing_running]
    split <;> rfl

theorem offerEdge_blind (e : Edge) : PortBlind (offerEdge e) := fun m ph s => by
  unfold offerEdge
  split
  · exact raise_blind ..
  · exact returnKey_blind ..

theorem makeChange_blind (c : Change) : PortBlind (makeChange c) := fun m ph s => by
  cases c with
  | edge e => exact offerEdge_blind e m ph s
  | unshelve i =>
    have hf : forbiddenAt (s.facing m ph) i = forbiddenAt s i := rfl
    show enforceMaskAt i _ = (enforceMaskAt i s).facing m ph
    unfold enforceMaskAt
    rw [hf, unshelveSlot_blind]
    split <;> rfl

theorem makeNext_blind (n : Nat) (stages : List (List Change)) (free : List Change) : PortBlind (makeNext n stages free) :=
  fun m ph s => by
  induction n generalizing stages free s with
  | zero => rfl
  | succ n ih =>
    unfold makeNext
    rw [facing_table]
    split
    · rw [makeChange_blind, ih]
    · rfl

theorem offerEdges_blind (es : List Edge) : PortBlind (offerEdges es) := makeNext_blind _ _ _

/-! The plant -/

theorem waitNoMore_blind (c : Claimant) : PortBlind (waitNoMore c) := fun m ph s => by cases c <;> rfl

theorem stopPump_blind (w : StopReason) (p : Ix6) : PortBlind (stopPump w p) := fun m ph s => by
  unfold stopPump
  dsimp only
  rw [facing_running]
  split <;> rfl

theorem addReason_blind (p : Ix6) (r : PumpReason) (es : List Edge) : PortBlind (addReason p r es) := fun m ph s => by
  have hends : shedEnds (.pump p) (s.facing m ph) = shedEnds (.pump p) s := rfl
  unfold addReason
  dsimp only
  rw [facing_pump, hends, onPump_facing]
  split
  · rw [onPump_facing, waitNoMore_blind, offerEdges_blind]
  · rw [stopPump_blind, offerEdges_blind]
  · rw [stopPump_blind, offerEdges_blind]
  · exact offerEdges_blind ..

end Sys2Proof.Machine
end


section
/-!
SUPPORT. The duty: positions and the count wanted (O19), the called set (O20), the timed events (O21) and the panel's duty
commands (O22).
-/

namespace Sys2Proof.Machine

open Host (Outcome)

/-! What the screens' test at a period end moves -/

/-- Only the screens and the claim queue move. -/
structure ScreensMove (s t : State) : Prop where
  eq : t = { s with screens := t.screens, power := { s.power with queue := t.power.queue } }

theorem ScreensMove.refl (s : State) : ScreensMove s s := ⟨rfl⟩

theorem ScreensMove.trans {s t u : State} (h : ScreensMove s t) (k : ScreensMove t u) : ScreensMove s u :=
  ⟨by rw [k.eq, h.eq]⟩

theorem screensMove_foldl {α : Type} (f : State → α → State) (hf : ∀ s a, ScreensMove s (f s a)) (l : List α) (s : State) :
    ScreensMove s (l.foldl f s) := foldl_frame ScreensMove .refl .trans f hf l s

theorem onScreen_screensMove (n : Ix2) (f : Screen → Screen) (s : State) : ScreensMove s (s.onScreen n f) := ⟨rfl⟩

theorem leaveQueue_screensMove (c : Claimant) (s : State) : ScreensMove s (leaveQueue c s) := ⟨rfl⟩

theorem joinQueue_screensMove (c : Claimant) (s : State) : ScreensMove s (joinQueue c s) := by
  unfold joinQueue
  split
  · exact .refl s
  · exact ⟨rfl⟩

theorem formDifferential_screensMove (n : Ix2) (s : State) : ScreensMove s (formDifferential n s) := by
  unfold formDifferential
  cases n
  · dsimp only
    split
    · exact onScreen_screensMove ..
    · exact onScreen_screensMove ..
  · dsimp only
    split
    · exact onScreen_screensMove ..
    · exact onScreen_screensMove ..

theorem testBlocked_screensMove (n : Ix2) (s : State) : ScreensMove s (testBlocked n s) := by
  rw [testBlocked_eq]
  dsimp only
  split
  · exact ((onScreen_screensMove ..).trans (leaveQueue_screensMove ..)).trans (joinQueue_screensMove ..)
  · exact onScreen_screensMove ..

theorem formScreens_screensMove (s : State) : ScreensMove s (formScreens s) :=
  screensMove_foldl _ (fun s n => (formDifferential_screensMove n s).trans (testBlocked_screensMove n _)) _ s

theorem ScreensMove.pump {s t : State} (h : ScreensMove s t) (p : Ix6) : t.pump p = s.pump p := by rw [h.eq]; rfl

/-! Positions and N (R44 to R46) -/

theorem position_off (c : Settings) (d level : Nat) (k : Ix6) :
    c.position d level k false = true ↔ c.effectiveStart d k ≤ level := decide_eq_true_iff

theorem position_on (c : Settings) (d level : Nat) (k : Ix6) :
    c.position d level k true = false ↔ level ≤ c.effectiveStop d k := by
  show (!decide _) = false ↔ _
  rw [Bool.not_eq_false', decide_eq_true_iff]

theorem wantedInFloat_eq (s : State) : wantedInFloat s =
    if s.level.highHigh.state then 6 else if s.level.high.state then max s.duty.wanted 2
    else if s.level.low.state then s.duty.wanted else 0 := by
  unfold wantedInFloat
  cases s.level.low.state <;> rfl

theorem wantedPeriodEnd_float {s : State} (h : s.level.mode = .float) :
    wantedPeriodEnd s = setWanted (wantedInFloat s) s := by
  unfold wantedPeriodEnd
  rw [h]

theorem wantedPeriodEnd_level {s : State} (h : s.level.mode = .level) :
    wantedPeriodEnd s =
      let u := s.onDuty fun d => { d with
        positions := Six.gen fun k =>
          s.running.position d.drawdown (s.level.wellLevel.getD 0) k (d.positions.get k) }
      setWanted (wantedInLevel u) u := by
  unfold wantedPeriodEnd
  rw [h]

theorem wantedPeriodEnd_duty (s : State) : wantedPeriodEnd s = { s with duty :=
    { s.duty with positions := (wantedPeriodEnd s).duty.positions, wanted := (wantedPeriodEnd s).duty.wanted } } := by
  cases h : s.level.mode with
  | float => rw [wantedPeriodEnd_float h]; rfl
  | level => rw [wantedPeriodEnd_level h]; rfl

theorem wantedAtFloat_float {s : State} (f : FloatId) (h : s.level.mode = .float) :
    wantedAtFloat f s = setWanted (wantedInFloat s) s := by
  unfold wantedAtFloat
  rw [h]

theorem wantedAtFloat_level {s : State} (f : FloatId) (h : s.level.mode = .level) :
    wantedAtFloat f s = if f = .highHigh then setWanted (wantedInLevel s) s else s := by
  unfold wantedAtFloat
  rw [h]

/-- What a float's expiry leaves to the count wanted and the end of its event (R8, R13). -/
def floatTaken (f : FloatId) (s : State) : State :=
  if f = .highHigh then followHighHighFloat (s.onLevel (Level.onFloat f Debounced.take))
  else s.onLevel (Level.onFloat f Debounced.take)

theorem exec_floatExpiry {f : FloatId} {s : State} (h : (s.level.float f).timer = some 0) :
    exec (.floatDebounceExpiry f) s = .next (conclude (wantedAtFloat f (floatTaken f s))) :=
  exec_due rfl (timerDue_on h)

/-- The HIGH-HIGH float taken: its part and its cause follow, with their edge (R13). -/
theorem followHighHigh_frame (s : State) : EdgeFrame (s.onLevel fun l => Level.formHighHigh
    { (Level.onFloat .highHigh Debounced.take l) with hhFloatPart := (lineTaken l.highHigh).state })
    (floatTaken .highHigh s) := offerEdges_frame _ _

theorem floatTaken_other {f : FloatId} (h : f ≠ .highHigh) (s : State) :
    floatTaken f s = s.onLevel (Level.onFloat f Debounced.take) := if_neg h

theorem floatTaken_duty (f : FloatId) (s : State) : (floatTaken f s).duty = s.duty ∧
    (floatTaken f s).level.mode = s.level.mode := by
  by_cases hf : f = .highHigh
  · subst hf
    have h := followHighHigh_frame s
    exact ⟨h.duty, (congrArg Level.mode h.level).trans rfl⟩
  · rw [floatTaken_other hf]
    exact ⟨rfl, by cases f <;> rfl⟩

/-- The edge of a cause (R124, R125). -/
theorem offer_cause (k : Kind) (n : Nat) (before after : Bool) (x : List Byte) (s : State) :
    offerEdges (causeEdge k n before after x) s =
      if after = before then s else if after then raise ⟨k, n⟩ k.severity x s else returnKey ⟨k, n⟩ s := by
  cases before <;> cases after <;> rfl

theorem bits_two (a b : Bool) : bits [a, b] = (if a then 1 else 0) + (if b then 2 else 0) := by
  cases a <;> cases b <;> rfl

/-- The HIGH-HIGH edge as the HIGH-HIGH float is taken (R13). -/
theorem floatTaken_highHigh (s : State) : let u := { s with level := (floatTaken .highHigh s).level }
    floatTaken .highHigh s =
      if u.level.highHighCause = s.level.highHighCause then u
      else if u.level.highHighCause then raise ⟨.highHigh, 0⟩ .critical
        (byte ((if u.level.hhFloatPart then 1 else 0) + (if u.level.hhLevelPart then 2 else 0)) ::
          bytes2 (s.level.wellLevel.getD 65535)) u
      else returnKey ⟨.highHigh, 0⟩ u := by
  have hl := (followHighHigh_frame s).level
  intro u
  have hu : u = s.onLevel fun l => Level.formHighHigh
      { (Level.onFloat .highHigh Debounced.take l) with hhFloatPart := (lineTaken l.highHigh).state } :=
    congrArg (fun l => { s with level := l }) hl
  refine (offer_cause .highHigh 0 s.level.highHighCause _ _ _).trans ?_
  rw [bits_two, hu]
  rfl

theorem wantedAtFloat_duty (f : FloatId) (s : State) :
    wantedAtFloat f s = { s with duty := { s.duty with wanted := (wantedAtFloat f s).duty.wanted } } := by
  unfold wantedAtFloat
  split
  · rfl
  · split <;> rfl

/-! Head-blocked (R42, R43) -/

theorem timeHead_eq (delay : Nat) (q : Pump) : q.timeHead delay = { q with
    headTimer := if q.seq = .running ∧ q.headLimited = true then
      (if q.headTimer = none then some (100 * delay) else q.headTimer) else none } := by
  unfold Pump.timeHead
  by_cases h : q.seq = .running ∧ q.headLimited = true
  · rw [if_pos h, if_pos (by rw [h.1, h.2]; rfl)]
    cases ht : q.headTimer with
    | none => rfl
    | some n => exact (congrArg (fun x => { q with headTimer := x }) ht).symm ▸ rfl
  · rw [if_neg h, if_neg (by rw [Bool.and_eq_true, decide_eq_true_eq]; exact h)]

theorem headPeriodEnd_pump (s : State) (p : Ix6) : (headPeriodEnd s).pump p = { s.pump p with
    headTimer := if (s.pump p).seq = .running ∧ (s.pump p).headLimited = true then
      (if (s.pump p).headTimer = none then some (100 * s.running.headBlockedDelay p) else (s.pump p).headTimer) else none
    headBlocked := (s.pump p).headBlocked &&
      decide (s.running.curveHead p 4 - s.running.headHysteresis p < s.balance.head) } := by
  refine (Six.get_gen _ p).trans ?_
  rw [timeHead_eq]
  have hclears : (!s.running.headClears p s.balance.head) =
      decide (s.running.curveHead p 4 - s.running.headHysteresis p < s.balance.head) := by
    rw [Settings.headClears, ← decide_not]
    exact decide_eq_decide.mpr Nat.not_le
  rw [hclears]

/-- A mark that only clears has at most its return. -/
theorem causeEdge_cleared {k : Kind} {n : Nat} {a b : Bool} (h : b = true → a = true) :
    causeEdge k n a b [] = if a && !b then [⟨k, n, none⟩] else [] := by
  cases a
  · cases b
    · rfl
    · exact absurd (h rfl) Bool.noConfusion
  · cases b <;> rfl

theorem flatten_ite_singleton {α β : Type} (c : α → Bool) (f : α → β) (l : List α) :
    (l.map fun a => if c a then [f a] else []).flatten = (l.filter c).map f := by
  induction l with
  | nil => rfl
  | cons a l ih =>
    rw [List.map_cons, List.flatten_cons, ih, List.filter_cons]
    cases c a <;> rfl

theorem headEdges_eq {s t : State} (h : ∀ p, (t.pump p).headBlocked = true → (s.pump p).headBlocked = true) :
    headEdges s t = (Ix6.all.filter fun p => (s.pump p).headBlocked && !(t.pump p).headBlocked).map fun p =>
      ⟨.pumpHeadBlocked, p.num, none⟩ := by
  rw [← flatten_ite_singleton]
  exact congrArg (fun f => (List.map f Ix6.all).flatten) (funext fun p => causeEdge_cleared (h p))

theorem blocksPeriodEnd_eq (lost : Bool) (s : State) : blocksPeriodEnd lost s =
    formScreens (headPeriodEnd (if lost && s.duty.drawdownTimer.isSome
      then s.onDuty fun d => { d with drawdown := 0, drawdownTimer := none } else s)) := by
  refine congrArg (fun u => formScreens (headPeriodEnd u)) ?_
  cases lost
  · rfl
  · show s.onDuty Duty.endDrawdown = if s.duty.drawdownTimer.isSome then _ else _
    unfold State.onDuty Duty.endDrawdown Duty.drawdownActive
    split <;> rfl

theorem blocksPeriodEnd_headBlocked (lost : Bool) (s : State) (p : Ix6) :
    ((blocksPeriodEnd lost s).pump p).headBlocked = ((headPeriodEnd s).pump p).headBlocked := by
  rw [blocksPeriodEnd_eq, (formScreens_screensMove _).pump, headPeriodEnd_pump, headPeriodEnd_pump]
  split <;> rfl

/-- The count wanted at a float's expiry, and the end of its event (R46). -/
theorem conclude_wantedAtFloat (f : FloatId) (v : State) : let t := conclude (wantedAtFloat f v)
    t.level = v.level ∧ t.duty.wanted = (wantedAtFloat f v).duty.wanted ∧
    t.duty = { v.duty with ladder := t.duty.ladder, wanted := (wantedAtFloat f v).duty.wanted } := by
  have hc := conclude_frame (wantedAtFloat f v)
  have hl := (wantedAtFloat_parts f v).1
  have hd := congrArg State.duty (wantedAtFloat_duty f v)
  generalize conclude (wantedAtFloat f v) = t at hc
  have hduty := hc.duty
  rw [hd] at hduty
  exact ⟨hc.level.trans hl, by rw [hc.duty], hduty⟩

theorem wantedAtFloat_inFloat {v : State} (f : FloatId) (h : v.level.mode = .float) : (wantedAtFloat f v).duty.wanted =
    if v.level.highHigh.state then 6 else if v.level.high.state then max v.duty.wanted 2
    else if v.level.low.state then v.duty.wanted else 0 := by
  rw [wantedAtFloat_float f h, ← wantedInFloat_eq]
  rfl

theorem wantedAtFloat_inLevel {v : State} (f : FloatId) (h : v.level.mode = .level) : (wantedAtFloat f v).duty.wanted =
    if f ≠ .highHigh then v.duty.wanted else if v.level.highHigh.state then 6
    else v.duty.positions.toList.countP id := by
  rw [wantedAtFloat_level f h]
  by_cases hf : f = .highHigh
  · rw [if_pos hf, if_neg (Classical.not_not.mpr hf)]
    rfl
  · rw [if_neg hf, if_pos hf]

/-- Settles O19. -/
theorem positionsAndWanted : Obligations.PositionsAndWanted := by
  refine ⟨fun c d level k => ⟨rfl, rfl, position_off c d level k, position_on c d level k⟩, fun s =>
    ⟨wantedPeriodEnd_duty s, fun level hm hl => ?_, fun hm => ?_⟩, fun s f h => ⟨_, exec_floatExpiry h, ?_⟩,
    fun s => ⟨headPeriodEnd_pump s, rfl, fun lost => ⟨blocksPeriodEnd_eq lost s, ?_⟩⟩⟩
  · rw [wantedPeriodEnd_level hm, hl]
    exact ⟨fun k => Six.get_gen _ k, rfl⟩
  · rw [wantedPeriodEnd_float hm]
    exact ⟨rfl, wantedInFloat_eq s⟩
  · obtain ⟨hd, hm⟩ := floatTaken_duty f s
    obtain ⟨hlevel, hwanted, hduty⟩ := conclude_wantedAtFloat f (floatTaken f s)
    refine ⟨fun hf => ?_, fun hl => ?_, fun hne => ?_, fun heq => ?_⟩
    · rw [hlevel, hduty, wantedAtFloat_inFloat f (hm.trans hf), hd]
    · rw [hlevel, hduty, wantedAtFloat_inLevel f (hm.trans hl), hd]
    · rw [hlevel, floatTaken_other hne]
      cases f
      case highHigh => exact absurd rfl hne
      all_goals exact ⟨rfl, rfl⟩
    · subst heq
      have hl := (followHighHigh_frame s).level
      rw [hwanted, hlevel]
      refine ⟨by rw [hl]; rfl, by rw [hl]; rfl, ?_⟩
      dsimp only
      rw [← floatTaken_highHigh s, ← hd, ← wantedAtFloat_duty]
  · refine (headEdges_eq fun p hp => ?_).trans ?_
    · rw [blocksPeriodEnd_headBlocked, headPeriodEnd_pump] at hp
      exact (Bool.and_eq_true_iff.mp hp).1
    · simp only [blocksPeriodEnd_headBlocked]
      rfl

/-! The called set (R39, R47, R48) -/

theorem eligible_iff (q : Pump) : q.eligible = true ↔
    q.selector = .auto ∧ q.locks = ⟨false, false, false, false, false⟩ ∧ q.headBlocked = false ∧
      (q.seq = .idle ∨ q.seq = .queued ∨ q.seq = .starting ∨ q.seq = .running) := by
  have hempty : q.locks.empty = true ↔ q.locks = ⟨false, false, false, false, false⟩ := by
    obtain ⟨a, b, c, d, e⟩ := q.locks
    cases a <;> cases b <;> cases c <;> cases d <;> cases e <;> decide
  simp only [Pump.eligible, Bool.and_eq_true, Bool.or_eq_true, Bool.not_eq_true', decide_eq_true_eq, hempty, and_assoc,
    or_assoc]

theorem onDuty_iff (q : Pump) : q.onDuty = true ↔ q.seq = .starting ∨ q.seq = .running := by
  rw [Pump.onDuty, Bool.or_eq_true, decide_eq_true_eq, decide_eq_true_eq]

/-- An eligible pump not on duty rests in IDLE or waits in QUEUED (R39). -/
theorem eligible_offDuty {q : Pump} (h : q.eligible = true) : q.onDuty = false ↔ q.seq = .idle ∨ q.seq = .queued := by
  obtain ⟨-, -, -, hseq⟩ := (eligible_iff q).mp h
  rcases hseq with h | h | h | h <;> simp [Pump.onDuty, h]

theorem mem_dutySet {s : State} {p : Ix6} : p ∈ dutySet s ↔
    p ∈ s.duty.ladder ∧ (s.pump p).eligible = true ∧ (s.pump p).onDuty = true := by
  rw [dutySet, List.mem_filter, Bool.and_eq_true]

theorem mem_freshSet {s : State} {p : Ix6} : p ∈ freshSet s ↔ p ∈ s.duty.ladder ∧ (s.pump p).eligible = true ∧
    (s.pump p).onDuty = false ∧ (s.pump p).startsLimited = false := by
  simp only [freshSet, List.mem_filter, Bool.and_eq_true, Bool.not_eq_true', and_assoc]

theorem calledSet_few {s : State} (h : s.duty.wanted ≤ (dutySet s).length) :
    calledSet s = (dutySet s).take s.duty.wanted := by
  rw [calledSet, Nat.sub_eq_zero_of_le h, List.take_zero, List.append_nil]

theorem calledSet_more {s : State} (h : (dutySet s).length < s.duty.wanted) :
    calledSet s = dutySet s ++ (freshSet s).take (s.duty.wanted - (dutySet s).length) := by
  rw [calledSet, List.take_of_length_le (Nat.le_of_lt h)]

theorem calledSet_length (s : State) : (calledSet s).length ≤ s.duty.wanted := by
  rw [calledSet, List.length_append, List.length_take, List.length_take]
  omega

theorem calledSet_nodup {s : State} (h : LadderOk s.duty.ladder) : (calledSet s).Nodup := by
  refine List.nodup_append.mpr ⟨(h.nodup.filter _).sublist (List.take_sublist ..),
    (h.nodup.filter _).sublist (List.take_sublist ..), fun p hp q hq hpq => ?_⟩
  obtain ⟨-, -, hon⟩ := mem_dutySet.mp (List.mem_of_mem_take hp)
  obtain ⟨-, -, hoff, -⟩ := mem_freshSet.mp (List.mem_of_mem_take hq)
  subst hpq
  exact Bool.noConfusion (hon.symm.trans hoff)

/-- A pump called afresh is not starts-limited, and it displaces none on duty (R47). -/
theorem calledSet_fresh {s : State} {p : Ix6} (h : p ∈ calledSet s) (hoff : (s.pump p).onDuty = false) :
    (s.pump p).startsLimited = false ∧ ∀ q ∈ dutySet s, q ∈ calledSet s := by
  rcases List.mem_append.mp h with hp | hp
  · obtain ⟨-, -, hon⟩ := mem_dutySet.mp (List.mem_of_mem_take hp)
    exact Bool.noConfusion (hon.symm.trans hoff)
  · obtain ⟨-, -, -, hlimit⟩ := mem_freshSet.mp (List.mem_of_mem_take hp)
    have hmore : (dutySet s).length < s.duty.wanted := by
      refine Classical.byContradiction fun hn => ?_
      rw [Nat.sub_eq_zero_of_le (Nat.not_lt.mp hn), List.take_zero] at hp
      exact List.not_mem_nil hp
    exact ⟨hlimit, fun q hq => by rw [calledSet_more hmore]; exact List.mem_append_left _ hq⟩

/-- Settles O20. -/
theorem calledSetHolds : Obligations.CalledSet := by
  refine ⟨fun s => ?_, fun s => ⟨rfl, fun p => ?_⟩⟩
  · intro eligible running n c fresh
    have helig : ∀ p, eligible p ↔ (s.pump p).eligible = true := fun p => (eligible_iff _).symm
    have hrun : ∀ p, running p ↔ (s.pump p).onDuty = true := fun p => (onDuty_iff _).symm
    have hc : c = dutySet s := List.filter_congr fun p _ => by
      rw [Bool.eq_iff_iff, decide_eq_true_eq, helig, hrun, Bool.and_eq_true]
    have hfresh : fresh = freshSet s := List.filter_congr fun p _ => by
      rw [Bool.eq_iff_iff, decide_eq_true_eq, helig, Bool.and_eq_true, Bool.and_eq_true, Bool.not_eq_true',
        Bool.not_eq_true', and_assoc]
      exact and_congr_right fun he => and_congr_left fun _ => (eligible_offDuty he).symm
    rw [hc, hfresh]
    refine ⟨calledSet_few, calledSet_more, fun hl => ⟨calledSet_nodup hl, calledSet_length s,
      fun p hp => (helig p).mpr (mem_calledSet_eligible hp), fun p hp hoff => ?_⟩⟩
    obtain ⟨hlimit, hall⟩ := calledSet_fresh hp (Bool.eq_false_iff.mpr fun h => hoff ((hrun p).mpr h))
    exact ⟨hlimit, fun q he hr => hall q (mem_dutySet.mpr ⟨hl.mem q, (helig q).mp he, (hrun q).mp hr⟩)⟩
  · refine (Six.get_gen _ p).trans ?_
    rw [List.contains_eq_mem]

/-! Timed events (R40 to R42, R54, R55, R67) -/

theorem Six.modify_eq_const {α : Type} (v : Six α) (i : Ix6) (f : α → α) :
    v.modify i f = v.modify i fun _ => f (v.get i) := by
  cases i <;> rfl

/-- An update of one pump is what it makes of that pump. -/
theorem onPump_congr {s : State} {p : Ix6} {f g : Pump → Pump} (h : f (s.pump p) = g (s.pump p)) :
    s.onPump p f = s.onPump p g := by
  have hm : s.pumps.modify p f = s.pumps.modify p g := by
    rw [Six.modify_eq_const, Six.modify_eq_const s.pumps p g]
    exact congrArg (fun q => s.pumps.modify p fun _ => q) h
  exact congrArg (fun ps => { s with pumps := ps }) hm

theorem reviewStarts_eq (p : Ix6) (s : State) :
    let limit := s.running.startsPerHour p
    let full := decide (limit ≤ (s.pump p).history.length)
    let u := s.onPump p fun q => { q with startsLimited := full }
    reviewStarts p s = if full = (s.pump p).startsLimited then u
      else if full then raise ⟨.pumpStartsLimit, p.num⟩ .advisory [byte limit] u
      else returnKey ⟨.pumpStartsLimit, p.num⟩ u := by
  intro limit full u
  refine (offer_cause .pumpStartsLimit p.num (s.pump p).startsLimited full [byte limit] _).trans ?_
  have hu : s.onPump p (Pump.review limit) = u := onPump_congr rfl
  rw [hu]
  rfl

theorem endDrawdown_running {s : State} (h : s.duty.drawdownTimer.isSome = true) : endDrawdown s =
    returnKey ⟨.drawdown, 0⟩ (s.onDuty fun d => { d with drawdown := 0, drawdownTimer := none }) :=
  (endDrawdown_eq s).trans (if_pos h)

/-- Settles O21. -/
theorem dutyTimers : Obligations.DutyTimers := by
  refine ⟨fun s p => ⟨fun first rest hh ha => ?_, fun ht hr => ?_, fun ht => ?_, fun ht => ?_⟩, fun s p =>
    reviewStarts_eq p s⟩
  · have hdue : oldestAged s.clock.uptime (s.pump p).history = true := by
      rw [hh]
      exact decide_eq_true ha
    have htail : (s.onPump p fun q => { q with history := q.history.tail }) =
        s.onPump p fun q => { q with history := rest } :=
      onPump_congr (by rw [hh]; rfl)
    refine (exec_due (i := .startHistoryAgeOut p) (s := s) rfl hdue).trans ?_
    rw [htail]
  · refine (exec_due (i := .headBlockedDelayExpiry p) (s := s) rfl (timerDue_on ht)).trans
      (congrArg (fun u => Outcome.next (conclude u)) ?_)
    exact if_pos hr
  · refine (exec_due (i := .drawdownExpiry) (s := s) rfl (timerDue_on ht)).trans
      (congrArg (fun u => Outcome.next (conclude u)) ?_)
    exact endDrawdown_running (by rw [ht]; rfl)
  · exact exec_silentDue rfl (decide_eq_true ht)

end Sys2Proof.Machine
end


section
/-!
SUPPORT. The panel's duty commands (O22).
-/

namespace Sys2Proof.Machine

open Host (Outcome)

/-! SET DUTY ORDER (R50) -/

theorem filterMap_num (l : List Ix6) : (l.map Ix6.num).filterMap six? = l := by
  rw [List.filterMap_map]
  rw [show six? ∘ Ix6.num = some from funext six?_num, List.filterMap_some]

/-- Numbers all of which name pumps spell those pumps. -/
theorem num_of_filterMap {ns : List Nat} (h : (ns.filterMap six?).length = ns.length) :
    ns = (ns.filterMap six?).map Ix6.num := by
  induction ns with
  | nil => rfl
  | cons n ns ih =>
    cases hn : six? n with
    | none =>
      rw [List.filterMap_cons_none hn, List.length_cons] at h
      have := List.length_filterMap_le six? ns
      omega
    | some p =>
      rw [List.filterMap_cons_some hn, List.length_cons, List.length_cons, Nat.add_right_cancel_iff] at h
      rw [List.filterMap_cons_some hn, List.map_cons, ← ih h, ← num_of_six? hn]

theorem ladderOf?_spelt {l : List Ix6} (h : LadderOk l) : ladderOf? (l.map Ix6.num) = some l := by
  have hall : Ix6.all.all l.contains = true := List.all_eq_true.mpr fun p _ => List.contains_iff_mem.mpr (h.mem p)
  unfold ladderOf?
  dsimp only
  rw [filterMap_num, if_pos]
  rw [hall, h.length_eq]
  rfl

theorem ladderOf?_ladder {ns : List Nat} {l : List Ix6} (hlen : ns.length = 6) (h : ladderOf? ns = some l) :
    LadderOk l ∧ ns = l.map Ix6.num := by
  unfold ladderOf? at h
  dsimp only at h
  split at h
  next hc =>
    obtain ⟨h6, hall⟩ := Bool.and_eq_true_iff.mp hc
    have h6 : (ns.filterMap six?).length = 6 := of_decide_eq_true h6
    obtain rfl := Option.some.inj h
    refine ⟨?_, num_of_filterMap (h6.trans hlen.symm)⟩
    have hsub : ∀ p ∈ Ix6.all, p ∈ ns.filterMap six? := fun p hp =>
      List.contains_iff_mem.mp (List.all_eq_true.mp hall p hp)
    exact (perm_of_subset (by decide) hsub (by rw [h6]; decide)).symm
  next => cases h

theorem cmdSetOrder_some {ns : List Nat} {l : List Ix6} (h : ladderOf? ns = some l) (s : State) : cmdSetOrder ns s =
    if l = s.duty.ladder then reply .already [] s
    else settleReply (.done, s.onDuty fun d => { d with ladder := l }) := by
  unfold cmdSetOrder
  rw [h]

theorem cmdSetOrder_none {ns : List Nat} (h : ladderOf? ns = none) (s : State) :
    cmdSetOrder ns s = reply .outOfRange [] s := by
  unfold cmdSetOrder
  rw [h]

/-! INHIBIT PUMP and RELEASE PUMP (R51) -/

theorem cmdInhibit_named (p : Ix6) (s : State) : cmdInhibit p.num s =
    if (s.pump p).panelMark then reply .already [] s else settleReply (.done, setInhibit p .panel s) := by
  unfold cmdInhibit
  rw [six?_num]

theorem cmdRelease_named (p : Ix6) (s : State) : cmdRelease p.num s =
    if (s.pump p).panelMark then settleReply (.done, clearInhibit p .panel s) else reply .already [] s := by
  unfold cmdRelease
  rw [six?_num]

theorem cmdInhibit_nobody {n : Nat} (h : ∀ p : Ix6, n ≠ p.num) (s : State) :
    cmdInhibit n s = reply .outOfRange [] s := by
  unfold cmdInhibit
  rw [six?_none h]

theorem cmdRelease_nobody {n : Nat} (h : ∀ p : Ix6, n ≠ p.num) (s : State) :
    cmdRelease n s = reply .outOfRange [] s := by
  unfold cmdRelease
  rw [six?_none h]

/-- A panel mark set (R51). -/
theorem setInhibit_panel {p : Ix6} {s : State} (h : (s.pump p).panelMark = false) : setInhibit p .panel s =
    addReason p .panelInhibit (if (s.pump p).townMark then [] else [⟨.pumpInhibited, p.num, some [1]⟩])
      (s.onPump p fun q => { q with panelMark := true }) := by
  have hi : (s.pump p).inhibited = (s.pump p).townMark := by rw [Pump.inhibited, h, Bool.false_or]
  unfold setInhibit
  rw [hi]
  cases (s.pump p).townMark <;> rfl

/-- A panel mark cleared (R51). -/
theorem clearInhibit_panel (p : Ix6) (s : State) : clearInhibit p .panel s =
    let u := s.onPump p fun q => { q with panelMark := false, locks := { q.locks with panelInhibit := false } }
    if (s.pump p).townMark then u else returnKey ⟨.pumpInhibited, p.num⟩ u := by
  have hi : ((s.onPump p fun q => { q with panelMark := false, locks := { q.locks with panelInhibit := false } }).pump
      p).inhibited = (s.pump p).townMark := by
    rw [pump_onPump]
    rfl
  unfold clearInhibit
  dsimp only
  show (if ((s.onPump p fun q => { q with panelMark := false, locks := { q.locks with panelInhibit := false } }).pump
    p).inhibited = true then _ else _) = _
  rw [hi]
  rfl

theorem addReason_acks (p : Ix6) (r : PumpReason) (es : List Edge) (s : State) :
    ((addReason p r es s).pump p).acks = (s.pump p).acks.put r false := by
  have hset : (s.onPump p fun q => { q with locks := q.locks.put r true, acks := q.acks.put r false }).pump p =
      { s.pump p with locks := (s.pump p).locks.put r true, acks := (s.pump p).acks.put r false } := pump_onPump ..
  have hstop := stopPump_pump .lockout p p
    (s.onPump p fun q => { q with locks := q.locks.put r true, acks := q.acks.put r false })
  rw [if_pos rfl, hset] at hstop
  unfold addReason
  dsimp only
  split
  · rw [(offerEdges_frame _ _).pump p, waitNoMore_pump, pump_onPump, hset]
  · rw [(offerEdges_frame _ _).pump p, hstop]
    rfl
  · rw [(offerEdges_frame _ _).pump p, hstop]
    rfl
  · rw [(offerEdges_frame _ _).pump p, hset]

/-- What the end of a panel command's event leaves of a pump's inhibits and of the answer. -/
theorem conclude_answered (u : State) (bs : List Byte) (p : Ix6) : let t := conclude (u.answered bs)
    (t.pump p).panelMark = (u.pump p).panelMark ∧ (t.pump p).locks = (u.pump p).locks ∧
    (t.pump p).acks = (u.pump p).acks ∧ t.port.phase = .result bs ∧
    t.balance = u.balance ∧ t.level = u.level ∧ t.store = u.store := by
  have hc := conclude_frame (u.answered bs)
  generalize conclude (u.answered bs) = t at hc
  have hpump := hc.pumps p
  have hport := hc.port
  exact ⟨by rw [hpump]; rfl, by rw [hpump]; rfl, by rw [hpump]; rfl, by rw [hport]; rfl, hc.balance, hc.level, hc.store⟩

theorem setInhibit_blind (p : Ix6) (party : Party) : PortBlind (setInhibit p party) := fun m ph s => by
  unfold setInhibit
  rw [facing_pump, onPump_facing, addReason_blind]

theorem clearInhibit_blind (p : Ix6) (party : Party) : PortBlind (clearInhibit p party) := fun m ph s => by
  unfold clearInhibit
  dsimp only
  rw [onPump_facing, facing_pump]
  split
  · rfl
  · exact returnKey_blind ..

/-! LOAD TOTALS (R56) -/

theorem cmdLoadTotals_named (p : Ix6) (run starts : Nat) (s : State) : cmdLoadTotals p.num run starts s =
    if (s.pump p).seq = .off || (s.pump p).seq = .idle then
      reply .done [] (s.onPump p fun q => { q with runSeconds := run, starts := starts, runTicks := 0 })
    else reply .wrongState [] s := by
  unfold cmdLoadTotals
  rw [six?_num]

theorem cmdLoadTotals_nobody {n : Nat} (h : ∀ p : Ix6, n ≠ p.num) (run starts : Nat) (s : State) :
    cmdLoadTotals n run starts s = reply .outOfRange [] s := by
  unfold cmdLoadTotals
  rw [six?_none h]

theorem toList_length (v : Six Byte) : (v.toList.map BitVec.toNat).length = 6 := rfl

/-- Settles O22. -/
theorem dutyPanelCommands : Obligations.DutyPanelCommands := by
  refine ⟨fun s order h => ⟨fun l hl hspelt => ?_, fun hnone => ?_⟩,
    fun s b h => ⟨fun p hp => ⟨fun hm => ?_, fun hm => ?_, fun hm => ?_, fun hm => ?_⟩, fun hp => ?_⟩,
    fun s b run starts h => ⟨fun p hp => ⟨fun hseq => ?_, fun hoff hidle => ?_⟩, fun hp => ?_⟩⟩
  · rw [exec_setDutyOrder h, hspelt, cmdSetOrder_some (ladderOf?_spelt hl)]
    exact ⟨fun hsame => congrArg Outcome.next (if_pos hsame), fun hother => congrArg Outcome.next (if_neg hother)⟩
  · rw [exec_setDutyOrder h, cmdSetOrder_none]
    · rfl
    · cases hof : ladderOf? (order.toList.map BitVec.toNat) with
      | none => rfl
      | some l =>
        obtain ⟨hl, hspelt⟩ := ladderOf?_ladder (toList_length order) hof
        exact absurd hspelt (hnone l hl)
  · rw [exec_inhibitPump h, hp, cmdInhibit_named]
    exact congrArg Outcome.next (if_pos hm)
  · rw [exec_releasePump h, hp, cmdRelease_named]
    exact congrArg Outcome.next (if_neg (ne_true_of_eq_false hm))
  · have hp' : ((s.taken 0x11 [b]).pump p).panelMark ≠ true := ne_true_of_eq_false hm
    refine ⟨_, ?_, rfl, ?_⟩
    · rw [exec_inhibitPump h, hp, cmdInhibit_named, if_neg hp', settleReply_blind (setInhibit_blind p .panel),
        setInhibit_panel hm]
      rfl
    · obtain ⟨hlocks, -, hpanel⟩ := addReason_locks p .panelInhibit
        (if (s.pump p).townMark then [] else [⟨.pumpInhibited, p.num, some [1]⟩])
        (s.onPump p fun q => { q with panelMark := true })
      have hacks := addReason_acks p .panelInhibit
        (if (s.pump p).townMark then [] else [⟨.pumpInhibited, p.num, some [1]⟩])
        (s.onPump p fun q => { q with panelMark := true })
      have hwired := addReason_wired p .panelInhibit
        (if (s.pump p).townMark then [] else [⟨.pumpInhibited, p.num, some [1]⟩])
        (s.onPump p fun q => { q with panelMark := true })
      generalize addReason p .panelInhibit _ _ = u at hlocks hpanel hacks hwired ⊢
      rw [pump_onPump] at hlocks hpanel hacks
      obtain ⟨hm', hl, ha, hph, hb, hlev, hst⟩ := conclude_answered u [0] p
      exact ⟨hm'.trans hpanel, hl.trans hlocks, ha.trans hacks, hph, hb.trans hwired.balance, hlev.trans hwired.level,
        hst.trans hwired.store⟩
  · have hp' : ((s.taken 0x12 [b]).pump p).panelMark = true := hm
    refine ⟨_, ?_, rfl, ?_⟩
    · rw [exec_releasePump h, hp, cmdRelease_named, if_pos hp', settleReply_blind (clearInhibit_blind p .panel),
        clearInhibit_panel]
      rfl
    · have hframe : EdgeFrame
          (s.onPump p fun q => { q with panelMark := false, locks := { q.locks with panelInhibit := false } })
          (if (s.pump p).townMark then
            s.onPump p fun q => { q with panelMark := false, locks := { q.locks with panelInhibit := false } }
          else returnKey ⟨.pumpInhibited, p.num⟩
            (s.onPump p fun q => { q with panelMark := false, locks := { q.locks with panelInhibit := false } })) := by
        split
        · exact .refl _
        · exact returnKey_frame ..
      generalize (if (s.pump p).townMark = true then _ else _ : State) = u at hframe ⊢
      have hpump := hframe.pump p
      rw [pump_onPump] at hpump
      obtain ⟨hm', hl, ha, hph, hb, hlev, hst⟩ := conclude_answered u [0] p
      exact ⟨hm'.trans (by rw [hpump]), hl.trans (by rw [hpump]), ha.trans (by rw [hpump]), hph, hb.trans hframe.balance,
        hlev.trans hframe.level, hst.trans hframe.store⟩
  · rw [exec_inhibitPump h, cmdInhibit_nobody hp, exec_releasePump h, cmdRelease_nobody hp]
    exact ⟨rfl, rfl⟩
  · rw [exec_loadTotals h, hp, cmdLoadTotals_named]
    refine congrArg Outcome.next (if_pos ?_)
    rw [Bool.or_eq_true, decide_eq_true_eq, decide_eq_true_eq]
    exact hseq
  · rw [exec_loadTotals h, hp, cmdLoadTotals_named]
    refine congrArg Outcome.next (if_neg ?_)
    rw [Bool.or_eq_true, decide_eq_true_eq, decide_eq_true_eq]
    exact fun hk => hk.elim hoff hidle
  · rw [exec_loadTotals h, cmdLoadTotals_nobody hp]
    rfl

end Sys2Proof.Machine
end


section
/-!
SUPPORT. Grants, pauses and stops, field by field (O23).
-/

namespace Sys2Proof.Machine

open Host (Outcome)

/-! Updates of one screen -/

theorem Two.modify_modify {α : Type} (v : Two α) (i : Ix2) (f g : α → α) :
    (v.modify i f).modify i g = v.modify i fun a => g (f a) := by
  cases i <;> rfl

theorem onScreen_onScreen (s : State) (n : Ix2) (f g : Screen → Screen) :
    (s.onScreen n f).onScreen n g = s.onScreen n fun a => g (f a) :=
  congrArg (fun v => { s with screens := v }) (Two.modify_modify s.screens n f g)

/-- An update of one screen is what it makes of that screen. -/
theorem onScreen_congr {s : State} {n : Ix2} {f g : Screen → Screen} (h : f (s.screen n) = g (s.screen n)) :
    s.onScreen n f = s.onScreen n g := by
  have hm : s.screens.modify n f = s.screens.modify n g := by
    rw [Two.modify_eq_const, Two.modify_eq_const s.screens n g]
    exact congrArg (fun a => s.screens.modify n fun _ => a) h
  exact congrArg (fun v => { s with screens := v }) hm

theorem energise_eq (n : Ix2) (st : RakeState) (d : Dir) (s : State) : energise n st d s = s.onScreen n fun a => { a with
    rake := st, up := decide (d = .up), down := decide (d = .down), jamTimer := some (100 * s.running.jamTime n) } := by
  cases d <;> rfl

theorem beginLeg_eq (n : Ix2) (st : RakeState) (d : Dir) (s : State) : beginLeg n st d s =
    checkLimit n (s.onScreen n fun a => { a with
      leg := d, upCount := 0, legLimit := s.running.travelLimit n
      rake := st, up := decide (d = .up), down := decide (d = .down), jamTimer := some (100 * s.running.jamTime n) }) := by
  unfold beginLeg startLeg
  rw [energise_eq, onScreen_onScreen]
  rfl

/-! A motor stage whose own limit is made (R100, R110) -/

section Limit

variable {n : Ix2} {s : State}

theorem checkLimit_descending (h : (s.screen n).rake = .descending) :
    checkLimit n s = if (s.screen n).bottom.state then enterGripping n s else s := by
  unfold checkLimit
  dsimp only
  rw [h]

theorem checkLimit_ascending (h : (s.screen n).rake = .ascending) :
    checkLimit n s = if (s.screen n).home.state then enterDischarging n s else s := by
  unfold checkLimit
  dsimp only
  rw [h]

theorem checkLimit_homing (h : (s.screen n).rake = .homing) :
    checkLimit n s = if (s.screen n).home.state then finishHoming n s else s := by
  unfold checkLimit
  dsimp only
  rw [h]

theorem checkLimit_positioning (h : (s.screen n).rake = .positioning) : checkLimit n s =
    if (s.screen n).up = true ∧ (s.screen n).home.state = true then
      finishPosition n (s.onScreen n fun a => { a with position := 0 })
    else if (s.screen n).down = true ∧ (s.screen n).bottom.state = true then finishPosition n s else s := by
  unfold checkLimit
  dsimp only
  rw [h]
  simp only [Bool.and_eq_true]

end Limit

/-! The first stage of an operation (R99, R100) -/

section First

variable {n : Ix2} {s : State}

theorem firstStage_cycle (h : (s.screen n).op = .cycle ∨ ∃ k, (s.screen n).op = .finish k) :
    firstStage n s = beginLeg n .descending .down (s.onScreen n fun a => { a with pending := false }) := by
  unfold firstStage
  rcases h with h | ⟨k, h⟩ <;> rw [h]

theorem firstStage_home (h : (s.screen n).op = .home true ∨ (s.screen n).op = .home false) :
    firstStage n s = beginLeg n .homing .up s := by
  unfold firstStage
  rcases h with h | h <;> rw [h]

theorem firstStage_position {p : Nat} (h : (s.screen n).op = .position p) : firstStage n s =
    if p = (s.screen n).position then finishPosition n s
    else if p < (s.screen n).position then beginLeg n .positioning .up s
    else beginLeg n .positioning .down s := by
  unfold firstStage
  rw [h]

end First

/-! The grant of a rake (R85, R110) -/

/-- A rake granted: its claim held and its shed mark cleared, with the return of the last mark (R89). -/
theorem claimRake_eq (n : Ix2) (s : State) : claimRake n s = offerEdges (shedEnds (.rake n) s)
    (s.onScreen n fun a => { a with claim := some (s.running.rakeUnits n), shedMark := false }) := by
  have hends : shedEnds (.rake n) (s.onScreen n fun a => { a with claim := some (s.running.rakeUnits n) }) =
      shedEnds (.rake n) s := by cases n <;> rfl
  show offerEdges _ (State.onScreen ..) = _
  rw [hends, onScreen_onScreen]

/-- A rake granted that has no stage saved enters the first of its operation. -/
theorem grantRake_first {n : Ix2} {s : State} (h : (s.screen n).rake ≠ .paused ∨ (s.screen n).saved = none) :
    grantRake n s = firstStage n (claimRake n s) := by
  by_cases hr : (s.screen n).rake = .paused
  · have hsaved : ((claimRake n s).screen n).saved = none := by
      rw [claimRake_screen]
      exact h.resolve_left (Classical.not_not.mpr hr)
    unfold grantRake
    dsimp only
    split
    next hs => exact absurd (hsaved.symm.trans hs) (by simp)
    next => rfl
  · exact grantRake_waiting hr

theorem claimRake_running (n : Ix2) (s : State) : (claimRake n s).running = s.running :=
  congrArg Store.running (claimRake_only n s).store

section Resume

variable (n : Ix2) (s : State)

/-- A PAUSED rake granted, its saved stage taken up. -/
def resumedRake : State := (claimRake n s).onScreen n fun a => { a with saved := none }

/-- A motor stage in a direction, the jam timer afresh. -/
def running (t : State) (st : RakeState) (d : Dir) : State := t.onScreen n fun a => { a with
  rake := st, up := decide (d = .up), down := decide (d = .down), jamTimer := some (100 * s.running.jamTime n) }

theorem resumedRake_running : (resumedRake n s).running = s.running := claimRake_running n s

theorem resumedRake_screen : (resumedRake n s).screen n =
    { s.screen n with claim := some (s.running.rakeUnits n), shedMark := false, saved := none } := by
  unfold resumedRake
  rw [screen_onScreen, claimRake_screen]

theorem energise_resumed {t : State} (h : t.running = s.running) (st : RakeState) (d : Dir) :
    energise n st d t = running n s t st d := by
  rw [energise_eq, h]
  rfl

theorem resume_descending : resumeStage n .descending (resumedRake n s) =
    checkLimit n (running n s (resumedRake n s) .descending .down) :=
  congrArg (checkLimit n) (energise_resumed n s (resumedRake_running n s) ..)

theorem resume_ascending : resumeStage n .ascending (resumedRake n s) =
    checkLimit n (running n s (resumedRake n s) .ascending .up) :=
  congrArg (checkLimit n) (energise_resumed n s (resumedRake_running n s) ..)

theorem resume_homing : resumeStage n .homing (resumedRake n s) =
    checkLimit n (running n s (resumedRake n s) .homing .up) :=
  congrArg (checkLimit n) (energise_resumed n s (resumedRake_running n s) ..)

theorem resume_positioning : resumeStage n .positioning (resumedRake n s) =
    checkLimit n (running n s (resumedRake n s) .positioning (s.screen n).leg) := by
  show checkLimit n (energise n .positioning ((resumedRake n s).screen n).leg (resumedRake n s)) = _
  rw [energise_resumed n s (resumedRake_running n s), resumedRake_screen]

theorem resume_gripping : resumeStage n .gripping (resumedRake n s) = (resumedRake n s).onScreen n fun a => { a with
    rake := .gripping, dwell := some (100 * s.running.gripDwell n) } := by
  rw [← resumedRake_running n s]
  rfl

theorem resume_discharging : resumeStage n .discharging (resumedRake n s) =
    (resumedRake n s).onScreen n fun a => { a with
      rake := .discharging, dwell := some (100 * s.running.dischargeDwell n) } := by
  rw [← resumedRake_running n s]
  rfl

/-- The direction a reverse runs in. -/
def Screen.reverseDir (a : Screen) : Dir := if a.interrupted = .up then .down else .up

/-- A PAUSED rake granted that was REVERSING, its reverse begun in full. -/
def reversedRake : State := running n s ((resumedRake n s).onScreen n fun a => { a with
  reverse := some (100 * s.running.reverseTime n) }) .reversing (s.screen n).reverseDir

theorem enterReversing_resumed : enterReversing n (resumedRake n s) = reversedRake n s := by
  have hdir : ((resumedRake n s).screen n).interrupted.opposite = (s.screen n).reverseDir := by
    rw [resumedRake_screen]
    unfold Screen.reverseDir
    cases (s.screen n).interrupted <;> rfl
  unfold enterReversing reversedRake
  rw [hdir, resumedRake_running]
  exact energise_resumed n s (by exact resumedRake_running n s) ..

theorem reversedRake_screen : ((reversedRake n s).screen n).up = decide ((s.screen n).reverseDir = .up) ∧
    ((reversedRake n s).screen n).down = decide ((s.screen n).reverseDir = .down) := by
  unfold reversedRake running
  rw [screen_onScreen]
  exact ⟨rfl, rfl⟩

theorem resume_reversing : resumeStage n .reversing (resumedRake n s) =
    if (s.screen n).reverseDir = .up ∧ (s.screen n).home.state = true then
      limitInReverse n true (reversedRake n s)
    else if (s.screen n).reverseDir = .down ∧ (s.screen n).bottom.state = true then
      limitInReverse n false (reversedRake n s)
    else reversedRake n s := by
  obtain ⟨hup, hdown⟩ := reversedRake_screen n s
  have hhome : ((resumedRake n s).screen n).home = (s.screen n).home := by rw [resumedRake_screen]
  have hbottom : ((resumedRake n s).screen n).bottom = (s.screen n).bottom := by rw [resumedRake_screen]
  unfold resumeStage
  dsimp only
  rw [enterReversing_resumed, hup, hdown, hhome, hbottom]
  simp only [Bool.and_eq_true, decide_eq_true_eq]

end Resume

/-! Stops (R49, R69) -/

theorem stopPump_rest (r : StopReason) (p : Ix6) (s : State) : let t := stopPump r p s
    (r = .callWithdrawn → s.running.rotationFixed = false → t.duty.ladder = toTail p s.duty.ladder) ∧
    (r ≠ .callWithdrawn ∨ s.running.rotationFixed = true → t.duty = s.duty) ∧
    t.screens = s.screens ∧ t.power = s.power ∧ t.table = s.table ∧ t.link = s.link ∧ t.port = s.port := by
  have hmoves : (decide (r = .callWithdrawn) && !s.running.rotationFixed) = true ↔
      r = .callWithdrawn ∧ s.running.rotationFixed = false := by
    rw [Bool.and_eq_true, decide_eq_true_eq, Bool.not_eq_true']
  intro t
  by_cases h : r = .callWithdrawn ∧ s.running.rotationFixed = false
  · have ht : t = _ := if_pos (hmoves.mpr h)
    rw [ht]
    exact ⟨fun _ _ => rfl, fun k => k.elim (absurd h.1) fun k => absurd (h.2.symm.trans k) Bool.noConfusion, rfl, rfl, rfl,
      rfl, rfl⟩
  · have ht : t = _ := if_neg fun k => h (hmoves.mp k)
    rw [ht]
    exact ⟨fun ha hb => absurd ⟨ha, hb⟩ h, fun _ => rfl, rfl, rfl, rfl, rfl, rfl⟩

theorem toTail_filter (p : Ix6) (l : List Ix6) : (toTail p l).filter (· ≠ p) = l.filter (· ≠ p) := by
  simp [toTail, List.filter_append]

theorem grantPump_rest (p : Ix6) (s : State) : let t := grantPump p s
    t.power = { s.power with stagger := some (100 * s.running.staggerTime) } ∧
    t.screens = s.screens ∧ t.duty = s.duty ∧ t.level = s.level ∧ t.balance = s.balance ∧ t.store = s.store := by
  have h : EdgeFrame ((s.onPump p (Pump.start s.running p s.clock.uptime)).onPower fun w =>
      { w with stagger := seconds s.running.staggerTime }) (grantPump p s) := offerEdges_frame ..
  exact ⟨h.power, h.screens, h.duty, h.level, h.balance, h.store⟩

/-- Settles O23. -/
theorem grantAndStopEffects : Obligations.GrantAndStopEffects := by
  refine ⟨fun s p => ⟨?_, fun q hq => ?_, grantPump_rest p s⟩, fun s n => ⟨fun h => ?_, fun hp =>
    ⟨fun hs => ?_, fun hs => ?_, fun hs => ?_, fun hs => ?_, fun hs => ?_, fun hs => ?_, fun hs => ?_⟩⟩, fun s n =>
    ⟨fun h => ?_, fun h => ?_, fun p h => ⟨fun hlt => ?_, fun hlt => ?_, fun heq => ?_⟩, checkLimit_descending,
      checkLimit_ascending, checkLimit_homing, checkLimit_positioning, rfl, rfl,
      congrArg (joinQueue (.rake n)) (onScreen_congr rfl)⟩,
    fun s p r => ⟨?_, fun q hq => ?_, fun hr hf => ?_, ?_⟩, fun s h => exec_due rfl (timerDue_on h)⟩
  · rw [grantPump_pump, if_pos rfl]
    simp only [Pump.start, Pump.review, List.length_append, List.length_singleton]
    rfl
  · rw [grantPump_pump, if_neg hq]
  · rw [grantRake_first h, claimRake_eq]
  · rw [grantRake_paused hp hs, ← claimRake_eq]
    exact resume_descending n s
  · rw [grantRake_paused hp hs, ← claimRake_eq]
    exact resume_ascending n s
  · rw [grantRake_paused hp hs, ← claimRake_eq]
    exact resume_homing n s
  · rw [grantRake_paused hp hs, ← claimRake_eq]
    exact resume_positioning n s
  · rw [grantRake_paused hp hs, ← claimRake_eq]
    exact resume_gripping n s
  · rw [grantRake_paused hp hs, ← claimRake_eq]
    exact resume_discharging n s
  · rw [grantRake_paused hp hs, ← claimRake_eq]
    have hres := resume_reversing n s
    obtain ⟨hup, hdown⟩ := reversedRake_screen n s
    refine ⟨fun hd hh => ?_, fun hd hb => ?_, fun hh hb => ?_⟩
    · refine (hres.trans (if_pos ⟨hd, hh⟩)).trans ?_
      unfold limitInReverse
      have hd' : (s.screen n).reverseDir = .up := hd
      rw [hup, decide_eq_true hd']
      rfl
    · have hnotUp : ¬((s.screen n).reverseDir = .up ∧ (s.screen n).home.state = true) := fun k =>
        Dir.noConfusion (hd.symm.trans k.1)
      exact hres.trans ((if_neg hnotUp).trans (if_pos ⟨hd, hb⟩))
    · exact hres.trans ((if_neg fun k => Bool.noConfusion ((hh k.1).symm.trans k.2)).trans
        (if_neg fun k => Bool.noConfusion ((hb k.1).symm.trans k.2)))
  · rw [firstStage_cycle h, beginLeg_eq]
    rfl
  · rw [firstStage_home h, beginLeg_eq]
  · rw [firstStage_position h, if_neg (Nat.ne_of_lt hlt), if_pos hlt, beginLeg_eq]
  · rw [firstStage_position h, if_neg (Nat.ne_of_gt hlt), if_neg (Nat.lt_asymm hlt), beginLeg_eq]
  · rw [firstStage_position h, if_pos heq]
  · rw [stopPump_pump, if_pos rfl]
    rfl
  · rw [stopPump_pump, if_neg hq]
  · obtain ⟨hl, -⟩ := stopPump_rest r p s
    rw [hl hr hf]
    exact ⟨List.getLast?_concat .., toTail_filter ..⟩
  · exact (stopPump_rest r p s).2

end Sys2Proof.Machine
end


section
/-!
SUPPORT. The Sequencer: its timers (O24), and feedback, inputs, lockouts and the selector (O25).
-/

namespace Sys2Proof.Machine

open Host (Outcome)

/-! Updates of one pump -/

theorem Six.modify_modify {α : Type} (v : Six α) (i : Ix6) (f g : α → α) :
    (v.modify i f).modify i g = v.modify i fun a => g (f a) := by
  cases i <;> rfl

theorem onPump_onPump (s : State) (p : Ix6) (f g : Pump → Pump) :
    (s.onPump p f).onPump p g = s.onPump p fun q => g (f q) :=
  congrArg (fun v => { s with pumps := v }) (Six.modify_modify s.pumps p f g)

/-! A reason joins the lockout set (R67) -/

/-- A pump with a reason in its lockout set, its mark clear. -/
def reasonPut (p : Ix6) (r : PumpReason) (s : State) : State :=
  s.onPump p fun q => { q with locks := q.locks.put r true, acks := q.acks.put r false }

section Reason

variable {p : Ix6} {r : PumpReason} {es : List Edge} {s : State}

theorem waitNoMore_pump_eq (p : Ix6) (s : State) : waitNoMore (.pump p) s =
    (s.onPump p fun q => { q with shedMark := false }).onPower fun w =>
      { w with queue := w.queue.filter fun c => c ≠ .pump p } := rfl

theorem addReason_queued (h : (s.pump p).seq = .queued) : addReason p r es s = offerEdges (es ++ shedEnds (.pump p) s)
    (((reasonPut p r s).onPump p fun q => { q with seq := .idle, shedMark := false }).onPower fun w =>
      { w with queue := w.queue.filter fun c => c ≠ .pump p }) := by
  unfold addReason
  dsimp only
  rw [h]
  dsimp only
  rw [waitNoMore_pump_eq, onPump_onPump]
  rfl

theorem addReason_running (h : (s.pump p).seq = .starting ∨ (s.pump p).seq = .running) :
    addReason p r es s = offerEdges es (stopPump .lockout p (reasonPut p r s)) := by
  unfold addReason
  rcases h with h | h
  · dsimp only
    rw [h]
    rfl
  · dsimp only
    rw [h]
    rfl

theorem addReason_resting (hq : (s.pump p).seq ≠ .queued) (hs : (s.pump p).seq ≠ .starting)
    (hr : (s.pump p).seq ≠ .running) : addReason p r es s = offerEdges es (reasonPut p r s) := by
  unfold addReason
  dsimp only
  split
  · exact absurd ‹_› hq
  · exact absurd ‹_› hs
  · exact absurd ‹_› hr
  · rfl

end Reason

/-! The sequencer's timers (R65, R66, R70) -/

section Windows

variable {p : Ix6} {s : State}

/-- A STARTING pump whose start window has run out (R65). -/
theorem startWindowExpires_starting (h : (s.pump p).seq = .starting) : startWindowExpires p s =
    raise ⟨.pumpFailStart, p.num⟩ .major [byte (s.running.startWindow p)] (stopPump .lockout p
      (s.onPump p fun q => { q with
        startWindow := none, locks := { q.locks with failStart := true }, acks := { q.acks with failStart := false } })) := by
  have hseq : ((s.onPump p fun q => { q with startWindow := none }).pump p).seq = .starting := by
    rw [pump_onPump]
    exact h
  unfold startWindowExpires lockPump
  rw [addReason_running (.inl hseq), reasonPut, onPump_onPump]
  rfl

theorem stopWindowExpires_present (h : (s.pump p).feedback.state = true) : stopWindowExpires p s =
    offerEdges (shedEnds (.pump p) s ++ [⟨.pumpFailStop, p.num, some [0]⟩]) (s.onPump p fun q =>
      { q with seq := .runOn, stopWindow := none, stopDone := false, runDown := none, shedMark := false }) := if_pos h

theorem stopWindowExpires_rest (h : (s.pump p).feedback.state = false) (hr : (s.pump p).runDown = none) :
    stopWindowExpires p s = s.onPump p fun q => { q with seq := .idle, stopWindow := none, stopDone := false } := by
  unfold stopWindowExpires restPump
  dsimp only
  rw [h, hr, onPump_onPump]
  rfl

theorem stopWindowExpires_runDown (h : (s.pump p).feedback.state = false) (hr : (s.pump p).runDown ≠ none) :
    stopWindowExpires p s = s.onPump p fun q => { q with stopWindow := none, stopDone := true } := by
  unfold stopWindowExpires
  dsimp only
  rw [h, Option.isSome_iff_ne_none.mpr hr]
  rfl

theorem runDownExpires_rest (h : (s.pump p).stopDone = true) :
    runDownExpires p s = s.onPump p fun q => { q with seq := .idle, runDown := none, stopDone := false } := by
  unfold runDownExpires restPump
  dsimp only
  rw [h, onPump_onPump]
  rfl

theorem runDownExpires_wait (h : (s.pump p).stopDone = false) :
    runDownExpires p s = s.onPump p fun q => { q with runDown := none } := by
  unfold runDownExpires
  dsimp only
  rw [h]
  rfl

end Windows

/-- What the end of an event leaves of a pump's lockouts, and of the blocks that a pump's timer does not reach. -/
theorem conclude_locks (u : State) : let t := conclude u
    (∀ q, (t.pump q).locks = (u.pump q).locks ∧ (t.pump q).acks = (u.pump q).acks) ∧
    t.level = u.level ∧ t.balance = u.balance ∧ t.store = u.store ∧ t.clock = u.clock := by
  have hc := conclude_frame u
  generalize conclude u = t at hc
  exact ⟨fun q => by rw [hc.pumps q]; exact ⟨rfl, rfl⟩, hc.level, hc.balance, hc.store, hc.clock⟩

theorem exec_startWindow {p : Ix6} {s : State} (h : (s.pump p).startWindow = some 0) (hs : (s.pump p).seq = .starting) :
    exec (.startWindowExpiry p) s = .next (conclude (startWindowExpires p s)) :=
  exec_due rfl (timerDue_and_on h (decide_eq_true hs))

theorem exec_stopWindow {p : Ix6} {s : State} (h : (s.pump p).stopWindow = some 0) (hs : (s.pump p).seq = .stopping) :
    exec (.stopWindowExpiry p) s = .next (conclude (stopWindowExpires p s)) :=
  exec_due rfl (timerDue_and_on h (decide_eq_true hs))

theorem exec_runDown {p : Ix6} {s : State} (h : (s.pump p).runDown = some 0) (hs : (s.pump p).seq = .stopping) :
    exec (.runDownExpiry p) s = .next (conclude (runDownExpires p s)) :=
  exec_due rfl (timerDue_and_on h (decide_eq_true hs))

/-- Settles O24. -/
theorem sequencerTimers : Obligations.SequencerTimers := by
  refine ⟨fun s p h hs => ⟨conclude (startWindowExpires p s), exec_startWindow h hs, ?_, ?_⟩, fun s p =>
    ⟨fun h => exec_due rfl (timerDue_on h), fun h hs hf hr => ?_, fun h hs hf hr => ?_, fun h hs hf => ?_,
      fun h hs hd => ?_, fun h hs hd => ?_⟩⟩
  · rw [startWindowExpires_starting hs]
  · obtain ⟨hlocks, hl, hb, hst, hk⟩ := conclude_locks (startWindowExpires p s)
    have hwired := (wired_onPump p (fun q => { q with startWindow := none }) s).trans
      (lockPump_wired p .failStart [byte (s.running.startWindow p)] _)
    have hpump : ∀ q, (startWindowExpires p s).pump q = (stopPump .lockout p (s.onPump p fun q => { q with
        startWindow := none, locks := { q.locks with failStart := true }
        acks := { q.acks with failStart := false } })).pump q := fun q => by
      rw [startWindowExpires_starting hs, (raise_frame ..).pump]
    generalize conclude (startWindowExpires p s) = t at hlocks hl hb hst hk ⊢
    refine ⟨?_, ?_, fun q hq => ?_, hl.trans hwired.level, hb.trans hwired.balance, hst.trans hwired.store,
      hk.trans hwired.clock⟩
    · rw [(hlocks p).1, hpump, stopPump_pump, if_pos rfl, pump_onPump]
      rfl
    · rw [(hlocks p).2, hpump, stopPump_pump, if_pos rfl, pump_onPump]
      rfl
    · rw [(hlocks q).1, hpump, stopPump_pump, if_neg hq, State.onPump_pump, if_neg hq]
  · rw [exec_stopWindow h hs, stopWindowExpires_rest hf hr]
  · rw [exec_stopWindow h hs, stopWindowExpires_runDown hf hr]
  · rw [exec_stopWindow h hs, stopWindowExpires_present hf]
  · rw [exec_runDown h hs, runDownExpires_rest hd]
  · rw [exec_runDown h hs, runDownExpires_wait hd]

/-! Feedback (R64, R68, R70 to R72) -/

section Feedback

variable {p : Ix6} {s : State}

theorem feedbackPresent_starting (h : (s.pump p).seq = .starting) : feedbackPresent p s = s.onPump p fun q => { q with
    seq := .running, startWindow := none, minRun := some (100 * s.running.minRun p), runningSince := s.clock.uptime } := by
  unfold feedbackPresent
  rw [h]
  rfl

theorem feedbackPresent_idle (h : (s.pump p).seq = .idle) : feedbackPresent p s = enterRunOn .idle p s := by
  unfold feedbackPresent
  rw [h]

theorem feedbackPresent_queued (h : (s.pump p).seq = .queued) :
    feedbackPresent p s = enterRunOn .queued p (leaveQueue (.pump p) s) := by
  unfold feedbackPresent
  rw [h]

theorem feedbackPresent_stopping (h : (s.pump p).seq = .stopping) :
    feedbackPresent p s = if (s.pump p).stopDone then enterRunOn .stopping p s else s := by
  unfold feedbackPresent
  rw [h]

theorem feedbackPresent_other (h : (s.pump p).seq = .off ∨ (s.pump p).seq = .hand ∨ (s.pump p).seq = .running ∨
    (s.pump p).seq = .runOn) : feedbackPresent p s = s := by
  unfold feedbackPresent
  rcases h with h | h | h | h <;> rw [h]

theorem feedbackAbsent_running (h : (s.pump p).seq = .running) :
    feedbackAbsent p s = lockPump p .trip (bytes2 (runSpan p s)) s := by
  unfold feedbackAbsent
  rw [h]

theorem feedbackAbsent_runOn (h : (s.pump p).seq = .runOn) : feedbackAbsent p s = leaveRunOn p s := by
  unfold feedbackAbsent
  rw [h]

theorem feedbackAbsent_other (hr : (s.pump p).seq ≠ .running) (ho : (s.pump p).seq ≠ .runOn) :
    feedbackAbsent p s = s := by
  unfold feedbackAbsent
  split
  · exact absurd ‹_› hr
  · exact absurd ‹_› ho
  · rfl

end Feedback

theorem pumpInputMoved_feedback (p : Ix6) (s : State) : pumpInputMoved p .feedback s =
    if (s.pump p).feedback.state then feedbackPresent p s else feedbackAbsent p s := rfl

theorem pumpInputMoved_seal (p : Ix6) (s : State) : pumpInputMoved p .sealProbe s =
    if (s.pump p).sealProbe.state then raise ⟨.pumpSeal, p.num⟩ .minor [] s else returnKey ⟨.pumpSeal, p.num⟩ s := rfl

theorem pumpInputMoved_thermal (p : Ix6) (s : State) : pumpInputMoved p .thermal s =
    if (s.pump p).thermal.state = false then releaseReasons p s else if (s.pump p).locks.thermal then s
    else addReason p .thermal [⟨.pumpThermal, p.num, some [byte (s.pump p).seq.code]⟩] s := by
  show thermalMoved p s = _
  unfold thermalMoved
  cases (s.pump p).thermal.state <;> rfl

/-! The selector (R38, R78) -/

section Selector

variable {p : Ix6} {s : State}

theorem moveSelector_aside {sel : Selector} (h : sel = .off ∨ sel = .hand) : moveSelector p sel s =
    offerEdges (shedEnds (.pump p) s ++ (if (s.pump p).seq = .runOn then [⟨.pumpFailStop, p.num, none⟩] else []))
      ((s.onPump p fun q => { q with
        selector := sel, seq := if sel = .hand then .hand else .off, contactor := false, claim := none
        startWindow := none, minRun := none, stopWindow := none, stopDone := false, runDown := none
        headTimer := none, shedMark := false }).onPower fun w =>
      { w with queue := w.queue.filter fun c => c ≠ .pump p }) := by
  have hauto : sel ≠ .auto := by rcases h with h | h <;> rw [h] <;> decide
  have hedge : causeEdge .pumpFailStop p.num (decide ((s.pump p).seq = .runOn)) false [] =
      if (s.pump p).seq = .runOn then [⟨.pumpFailStop, p.num, none⟩] else [] := by
    by_cases hr : (s.pump p).seq = .runOn
    · rw [decide_eq_true hr, if_pos hr, causeEdge_fall]
    · rw [decide_eq_false hr, if_neg hr, causeEdge_same]
  unfold moveSelector
  rw [if_neg hauto, hedge, waitNoMore_pump_eq, onPump_onPump]
  rfl

theorem moveSelector_idle (h : (s.pump p).feedback.state = false) :
    moveSelector p .auto s = s.onPump p fun q => { q with selector := .auto, seq := .idle } := by
  unfold moveSelector
  rw [if_pos rfl]
  dsimp only
  rw [h]
  rfl

theorem moveSelector_runOn (h : (s.pump p).feedback.state = true) : moveSelector p .auto s =
    offerEdges (shedEnds (.pump p) s ++ [⟨.pumpFailStop, p.num, some [3]⟩]) (s.onPump p fun q => { q with
      selector := .auto, seq := .runOn, stopWindow := none, stopDone := false, runDown := none, shedMark := false }) := by
  have hends : shedEnds (.pump p) (s.onPump p fun q => { q with selector := .auto, seq := .idle }) =
      shedEnds (.pump p) s := by cases p <;> rfl
  unfold moveSelector
  rw [if_pos rfl]
  dsimp only
  rw [h, if_pos rfl, enterRunOn, hends, onPump_onPump]
  rfl

theorem moveSelector_auto : let t := moveSelector p .auto s
    (t.pump p).seq = (if (s.pump p).feedback.state then .runOn else .idle) ∧ (t.pump p).selector = .auto ∧
    (t.pump p).locks = (s.pump p).locks ∧ (t.pump p).acks = (s.pump p).acks ∧
    (t.pump p).history = (s.pump p).history ∧ t.duty = s.duty := by
  cases hf : (s.pump p).feedback.state
  · rw [moveSelector_idle hf]
    dsimp only
    rw [pump_onPump]
    exact ⟨rfl, rfl, rfl, rfl, rfl, rfl⟩
  · rw [moveSelector_runOn hf]
    dsimp only
    rw [(offerEdges_frame ..).pump p, (offerEdges_frame ..).duty, pump_onPump]
    exact ⟨rfl, rfl, rfl, rfl, rfl, rfl⟩

end Selector

/-- Settles O25. -/
theorem feedbackAndSelector : Obligations.FeedbackAndSelector := by
  refine ⟨fun s p => ⟨feedbackPresent_starting, feedbackPresent_idle, feedbackPresent_queued, feedbackPresent_stopping,
    feedbackPresent_other, feedbackAbsent_running, feedbackAbsent_runOn, feedbackAbsent_other⟩,
    fun s p => ⟨fun h => ?_, fun h => ?_, fun h => ?_⟩,
    fun s p r es => ⟨addReason_queued, addReason_running, addReason_resting⟩,
    fun s p => ⟨fun sel h => moveSelector_aside h, ?_, fun l h => ?_, rfl, rfl, rfl, rfl⟩⟩
  · refine (exec_due (i := .pumpInputDebounceExpiry p .feedback) (s := s) rfl (timerDue_on h)).trans ?_
    rw [pumpInputMoved_feedback, pump_onPump]
    rfl
  · refine (exec_due (i := .pumpInputDebounceExpiry p .thermal) (s := s) rfl (timerDue_on h)).trans ?_
    rw [pumpInputMoved_thermal, pump_onPump]
    rfl
  · refine (exec_due (i := .pumpInputDebounceExpiry p .sealProbe) (s := s) rfl (timerDue_on h)).trans ?_
    rw [pumpInputMoved_seal, pump_onPump]
    rfl
  · obtain ⟨hseq, hsel, hl, ha, hh, hd⟩ := moveSelector_auto (p := p) (s := s)
    exact ⟨hseq, hsel, hl, ha, hh, hd, moveSelector_idle, moveSelector_runOn⟩
  · refine (exec_due (i := .selectorDebounceExpiry p l) (s := s) rfl (timerDue_on h)).trans ?_
    have hsel : ((s.onPump p (Pump.onLine l Debounced.take)).pump p).selector = (s.pump p).selector := by
      rw [pump_onPump]
      cases l <;> rfl
    unfold deriveSelector
    dsimp only
    rw [hsel]
    cases l <;> rfl

end Sys2Proof.Machine
end


section
/-!
SUPPORT. What a settling is made of: every call, shed, grant and test of an event's end is a chain of a few primitive
changes, so that what each of those keeps, the settling keeps.
-/

namespace Sys2Proof.Machine

open Host (Outcome)

/-- The changes that the calls, sheds and grants of an event's end are made of. -/
inductive Change1 : State → State → Prop
  | pumps (v : Six Pump) (s : State) : Change1 s { s with pumps := v }
  | screens (v : Two Screen) (s : State) : Change1 s { s with screens := v }
  | queue (q : List Claimant) (s : State) : Change1 s { s with power := { s.power with queue := q } }
  | stagger (x : Timer) (s : State) : Change1 s { s with power := { s.power with stagger := x } }
  | ladder (l : List Ix6) (s : State) : Change1 s { s with duty := { s.duty with ladder := l } }
  | flag (f : Flag) (s : State) : Change1 s (setFlag f s)
  | edges (es : List Edge) (s : State) : Change1 s (offerEdges es s)

/-- A chain of such changes. -/
abbrev Chain : State → State → Prop := Reaches Change1

theorem chain_foldl {α : Type} (f : State → α → State) (hf : ∀ s a, Chain s (f s a)) (l : List α) (s : State) :
    Chain s (l.foldl f s) := foldl_frame Chain (fun _ => .refl) (fun h k => h.trans k) f hf l s

theorem onPump_chain (p : Ix6) (f : Pump → Pump) (s : State) : Chain s (s.onPump p f) := .single (.pumps _ s)

theorem onScreen_chain (n : Ix2) (f : Screen → Screen) (s : State) : Chain s (s.onScreen n f) := .single (.screens _ s)

theorem setFlag_chain (f : Flag) (s : State) : Chain s (setFlag f s) := .single (.flag f s)

theorem offerEdges_chain (es : List Edge) (s : State) : Chain s (offerEdges es s) := .single (.edges es s)

theorem raiseKind_chain (k : Kind) (n : Nat) (x : List Byte) (s : State) : Chain s (raiseKind k n x s) :=
  offerEdges_chain [⟨k, n, some x⟩] s

theorem leaveQueue_chain (c : Claimant) (s : State) : Chain s (leaveQueue c s) := .single (.queue _ s)

theorem joinQueue_chain (c : Claimant) (s : State) : Chain s (joinQueue c s) := by
  unfold joinQueue
  split
  · exact .refl
  · exact .single (.queue _ s)

theorem setMark_chain (c : Claimant) (v : Bool) (s : State) : Chain s (setMark c v s) := by
  cases c
  · exact onPump_chain ..
  · exact onScreen_chain ..

theorem waitNoMore_chain (c : Claimant) (s : State) : Chain s (waitNoMore c s) :=
  (leaveQueue_chain ..).trans (setMark_chain ..)

theorem quitQueue_chain (c : Claimant) (s : State) : Chain s (quitQueue c s) :=
  (waitNoMore_chain ..).trans (offerEdges_chain ..)

theorem clearShed_chain (c : Claimant) (s : State) : Chain s (clearShed c s) :=
  (setMark_chain ..).trans (offerEdges_chain ..)

theorem markShed_chain (c : Claimant) (short : Nat) (s : State) : Chain s (markShed c short s) := by
  unfold markShed
  dsimp only
  split
  · exact setMark_chain ..
  · exact (setMark_chain ..).trans (raiseKind_chain ..)

/-! Pumps -/

theorem stopPump_chain (r : StopReason) (p : Ix6) (s : State) : Chain s (stopPump r p s) := by
  unfold stopPump
  dsimp only
  split
  · exact (onPump_chain ..).trans (.single (.ladder _ _))
  · exact onPump_chain ..

theorem unqueuePump_chain (p : Ix6) (s : State) : Chain s (unqueuePump p s) :=
  (onPump_chain ..).trans (quitQueue_chain ..)

theorem queuePump_chain (p : Ix6) (s : State) : Chain s (queuePump p s) := (onPump_chain ..).trans (joinQueue_chain ..)

theorem grantPump_chain (p : Ix6) (s : State) : Chain s (grantPump p s) := by
  unfold grantPump
  dsimp only
  exact ((onPump_chain ..).trans (.single (.stagger _ _))).trans (offerEdges_chain ..)

/-! Rakes -/

theorem writeCompletion_chain (n : Ix2) (o : Nat) (r : RakeOutcome) (c : Nat) (s : State) :
    Chain s (writeCompletion n o r c s) := (onScreen_chain ..).trans (setFlag_chain ..)

theorem beginOp_chain (n : Ix2) (op : Operation) (s : State) : Chain s (beginOp n op s) :=
  (onScreen_chain ..).trans (joinQueue_chain ..)

theorem testIdle_chain (n : Ix2) (s : State) : Chain s (testIdle n s) := by
  unfold testIdle
  dsimp only
  split
  · exact (onScreen_chain ..).trans (beginOp_chain ..)
  · exact onScreen_chain ..

theorem finishPosition_chain (n : Ix2) (s : State) : Chain s (finishPosition n s) :=
  (writeCompletion_chain ..).trans ((onScreen_chain ..).trans (raiseKind_chain ..))

theorem finishHoming_chain (n : Ix2) (s : State) : Chain s (finishHoming n s) :=
  (onScreen_chain ..).trans ((writeCompletion_chain ..).trans (onScreen_chain ..))

theorem checkLimit_chain (n : Ix2) (s : State) : Chain s (checkLimit n s) := by
  unfold checkLimit
  dsimp only
  split
  · split
    · exact onScreen_chain ..
    · exact .refl
  · split
    · exact onScreen_chain ..
    · exact .refl
  · split
    · exact finishHoming_chain ..
    · exact .refl
  · split
    · exact (onScreen_chain ..).trans (finishPosition_chain ..)
    · split
      · exact finishPosition_chain ..
      · exact .refl
  · exact .refl

theorem beginLeg_chain (n : Ix2) (st : RakeState) (d : Dir) (s : State) : Chain s (beginLeg n st d s) := by
  rw [beginLeg_eq]
  exact (onScreen_chain ..).trans (checkLimit_chain ..)

theorem firstStage_chain (n : Ix2) (s : State) : Chain s (firstStage n s) := by
  unfold firstStage
  split
  · exact (onScreen_chain ..).trans (beginLeg_chain ..)
  · exact (onScreen_chain ..).trans (beginLeg_chain ..)
  · exact beginLeg_chain ..
  · split
    · exact finishPosition_chain ..
    · split
      · exact beginLeg_chain ..
      · exact beginLeg_chain ..
  · exact .refl

theorem endReverse_chain (n : Ix2) (s : State) : Chain s (endReverse n s) :=
  (onScreen_chain ..).trans (onScreen_chain ..)

theorem limitInReverse_chain (n : Ix2) (home : Bool) (s : State) : Chain s (limitInReverse n home s) := by
  unfold limitInReverse
  split
  · exact (onScreen_chain ..).trans (endReverse_chain ..)
  · exact endReverse_chain ..

theorem resumeStage_chain (n : Ix2) (st : RakeState) (s : State) : Chain s (resumeStage n st s) := by
  have hmotor : ∀ st d, Chain s (checkLimit n (energise n st d s)) := fun st d =>
    (onScreen_chain ..).trans (checkLimit_chain ..)
  have hreverse : Chain s (enterReversing n s) := (onScreen_chain ..).trans (onScreen_chain ..)
  unfold resumeStage
  dsimp only
  split
  · exact onScreen_chain ..
  · exact onScreen_chain ..
  · split
    · exact hreverse.trans (limitInReverse_chain ..)
    · split
      · exact hreverse.trans (limitInReverse_chain ..)
      · exact hreverse
  · exact hmotor ..
  · exact hmotor ..
  · exact hmotor ..
  · exact hmotor ..
  · exact .refl

theorem grantRake_chain (n : Ix2) (s : State) : Chain s (grantRake n s) := by
  have hclaim : Chain s (claimRake n s) := (onScreen_chain ..).trans (clearShed_chain ..)
  by_cases h : (s.screen n).rake = .paused ∧ (s.screen n).saved ≠ none
  · obtain ⟨st, hst⟩ := Option.ne_none_iff_exists'.mp h.2
    rw [grantRake_paused h.1 hst]
    exact hclaim.trans ((onScreen_chain ..).trans (resumeStage_chain ..))
  · rw [grantRake_first (by rw [← Classical.not_and_iff_not_or_not.trans (or_congr_right Classical.not_not)]; exact h)]
    exact hclaim.trans (firstStage_chain ..)

theorem pauseRake_chain (n : Ix2) (s : State) : Chain s (pauseRake n s) :=
  (onScreen_chain ..).trans (joinQueue_chain ..)

/-! The settling -/

theorem shed_chain (short : Nat) (c : Claimant) (s : State) : Chain s (shed short c s) := by
  have hmark : Chain s (setFlag .power (markShed c short s)) := (markShed_chain ..).trans (setFlag_chain ..)
  unfold shed
  dsimp only
  split
  · exact hmark.trans (stopPump_chain ..)
  · exact hmark.trans (pauseRake_chain ..)

theorem shedAll_chain (s : State) : Chain s (shedAll s) :=
  chain_foldl _ (fun s c => by
    unfold shedNext
    split
    · exact shed_chain ..
    · exact .refl) _ s

theorem grant_chain (c : Claimant) (s : State) : Chain s (grant c s) := by
  cases c with
  | pump p => exact (leaveQueue_chain ..).trans (grantPump_chain ..)
  | rake n => exact (leaveQueue_chain ..).trans (grantRake_chain ..)

/-- The next move is one of the six. -/
theorem nextMove_chain {s : State} {f : State → State} (h : nextMove s = some f) : Chain s (f s) := by
  unfold nextMove at h
  split at h
  · exact Option.some.inj h ▸ shedAll_chain s
  · split at h
    · exact Option.some.inj h ▸ stopPump_chain ..
    · split at h
      · exact Option.some.inj h ▸ unqueuePump_chain ..
      · split at h
        · exact Option.some.inj h ▸ queuePump_chain ..
        · split at h
          · exact Option.some.inj h ▸ grant_chain ..
          · obtain ⟨n, -, rfl⟩ := Option.map_eq_some_iff.mp h
            exact testIdle_chain n s

theorem settleMoves_chain (k : Nat) (s : State) : Chain s (settleMoves k s) := by
  induction k generalizing s with
  | zero => exact .single (.pumps _ s)
  | succ k ih =>
    have hformed : Chain s (formCalled s) := .single (.pumps _ s)
    unfold settleMoves
    dsimp only
    split
    · exact hformed.trans ((nextMove_chain ‹_›).trans (ih _))
    · exact hformed

theorem clearIdleShed_chain (s : State) : Chain s (clearIdleShed s) :=
  chain_foldl _ (fun s p => by
    split
    · exact clearShed_chain ..
    · exact .refl) _ s

/-- A settling, but for the test of TRANSFER-ACK. -/
theorem settled_chain (s : State) : Chain s (clearIdleShed (settleMoves moveBound s)) :=
  (settleMoves_chain ..).trans (clearIdleShed_chain ..)

/-! What such a chain keeps -/

theorem Chain.keeps {α : Type} (f : State → α) (h : ∀ {s t}, Change1 s t → f t = f s) {s t : State} (hc : Chain s t) :
    f t = f s := by
  induction hc with
  | refl => rfl
  | tail _ hstep ih => exact (h hstep).trans ih

theorem Chain.ack {s t : State} (h : Chain s t) : t.power.ack = s.power.ack :=
  h.keeps (fun s => s.power.ack) fun hc => by
    cases hc
    case edges es => rw [(offerEdges_frame ..).power]
    all_goals rfl

end Sys2Proof.Machine
end


section
/-!
SUPPORT. The source and the transfer handshake (O27), and what the end of every event forms (O9).
-/

namespace Sys2Proof.Machine

open Host (Outcome)

/-! The source (R81, R82) -/

theorem sourceEdges_eq (old new : Source) (h : old ≠ new) (lines : List Byte) : sourceEdges old new lines =
    (if old = .mains then [⟨.mainsFail, 0, some lines⟩] else []) ++
      (if new = .none then [⟨.noPower, 0, some lines⟩] else []) ++
      (if old = .none then [⟨.noPower, 0, none⟩] else []) ++
      (if new = .mains then [⟨.mainsFail, 0, none⟩] else []) := by
  cases old <;> cases new
  case mains.mains | generator.generator | none.none => exact absurd rfl h
  all_goals rfl

theorem bits_three (a b c : Bool) :
    bits [a, b, c] = (if a then 1 else 0) + (if b then 2 else 0) + (if c then 4 else 0) := by
  cases a <;> cases b <;> cases c <;> rfl

theorem deriveSource_same {s : State} (h : s.power.source = s.power.derive) : deriveSource s = s := if_pos h

theorem deriveSource_moved {s : State} (h : s.power.source ≠ s.power.derive) : deriveSource s =
    (sourceEdges s.power.source s.power.derive s.power.lines).foldl (fun t e => offerEdge e t)
      (setFlag .power { s with power := { s.power with source := s.power.derive } }) := if_neg h

theorem offerAll_frame (es : List Edge) (s : State) : EdgeFrame s (es.foldl (fun t e => offerEdge e t) s) :=
  foldl_frame EdgeFrame .refl .trans _ (fun s e => offerEdge_frame e s) es s

/-- The source derived afresh, in what it leaves. -/
theorem deriveSource_parts (s : State) : let u := deriveSource s
    u.power = { s.power with source := s.power.derive } ∧
    (u.power.source ≠ s.power.source → u.port.flags.power = true) ∧
    s.port.flags.within u.port.flags ∧ u.level = s.level ∧ u.balance = s.balance ∧ u.store = s.store := by
  intro u
  by_cases h : s.power.source = s.power.derive
  · have hu : u = s := deriveSource_same h
    rw [hu]
    exact ⟨by rw [← h], fun hne => absurd rfl hne, Attention.within_refl _, rfl, rfl, rfl⟩
  · have hu : u = _ := deriveSource_moved h
    have hf := offerAll_frame (sourceEdges s.power.source s.power.derive s.power.lines)
      (setFlag .power { s with power := { s.power with source := s.power.derive } })
    rw [← hu] at hf
    have hset := setFlag_frame .power { s with power := { s.power with source := s.power.derive } }
    exact ⟨hf.power, fun _ => hf.flags .power (setFlag_has ..), Attention.within_trans hset.flags hf.flags, hf.level,
      hf.balance, hf.store⟩

/-! TRANSFER-ACK (R91) -/

theorem stopping_iff (s : State) : (s.pumps.toList.all fun q => !(decide (q.seq = .stopping) && q.stopWindow.isSome)) = true ↔
    ∀ p, ¬((s.pump p).seq = .stopping ∧ (s.pump p).stopWindow ≠ none) := by
  have hone : ∀ q : Pump, (!(decide (q.seq = .stopping) && q.stopWindow.isSome)) = true ↔
      ¬(q.seq = .stopping ∧ q.stopWindow ≠ none) := fun q => by
    rw [Bool.not_eq_true', ← Bool.not_eq_true, Bool.and_eq_true, decide_eq_true_eq, Option.isSome_iff_ne_none]
  show ((Ix6.all.map s.pumps.get).all _) = true ↔ _
  rw [List.all_map, List.all_eq_true]
  exact ⟨fun h p => (hone _).mp (h p (by cases p <;> decide)), fun h p _ => (hone _).mpr (h p)⟩

/-- TRANSFER-ACK's rest: nothing claimed and nothing stopping, with the transferring mark set. -/
def State.handedOver (s : State) : Prop :=
  s.power.transferring = true ∧ claimSum s = 0 ∧ ∀ p, ¬((s.pump p).seq = .stopping ∧ (s.pump p).stopWindow ≠ none)

theorem ackDue_iff (s : State) : ackDue s = true ↔ s.handedOver ∧ s.power.ack = false := by
  unfold ackDue State.handedOver
  rw [Bool.and_eq_true, Bool.and_eq_true, Bool.and_eq_true, stopping_iff, Bool.not_eq_true', decide_eq_true_eq]
  exact ⟨fun ⟨⟨⟨ht, ha⟩, hc⟩, hp⟩ => ⟨⟨ht, hc, hp⟩, ha⟩, fun ⟨⟨ht, hc, hp⟩, ha⟩ => ⟨⟨⟨ht, ha⟩, hc⟩, hp⟩⟩

theorem testAck_due {s : State} (h : s.handedOver) (ha : s.power.ack = false) :
    testAck s = setFlag .power { s with power := { s.power with ack := true } } := if_pos ((ackDue_iff s).mpr ⟨h, ha⟩)

theorem testAck_notDue {s : State} (h : ¬(s.handedOver ∧ s.power.ack = false)) : testAck s = s :=
  if_neg fun k => h ((ackDue_iff s).mp k)

/-- What is formed after a settling leaves the plant as it was settled. -/
theorem conclude_settled (s : State) : (conclude s).power = (settle s).power ∧ (conclude s).pumps = (settle s).pumps ∧
    (conclude s).screens = (settle s).screens ∧ (settle s).port.flags.within (conclude s).port.flags := by
  have hsat : EdgeFrame (settle s) (testSaturation (settle s)) := testSaturation_frame _
  have hsend : SendFrame (annunciate (testSaturation (settle s))) (conclude s) := transmit_frame _
  generalize conclude s = t, testSaturation (settle s) = u, settle s = v at hsat hsend ⊢
  refine ⟨hsend.power.trans hsat.power, hsend.pumps.trans hsat.pumps, hsend.screens.trans hsat.screens, ?_⟩
  rw [hsend.port]
  exact hsat.flags

/-- The test of TRANSFER-ACK is the last of a settling. -/
theorem settle_ack (s : State) : let t := settle s
    (t.handedOver → t.power.ack = true) ∧
    (t.power.ack = true → s.power.ack = true ∨ (t.handedOver ∧ t.port.flags.power = true)) := by
  have hack : (clearIdleShed (settleMoves moveBound s)).power.ack = s.power.ack := (settled_chain s).ack
  unfold settle
  generalize clearIdleShed (settleMoves moveBound s) = u at hack ⊢
  intro t
  by_cases h : u.handedOver ∧ u.power.ack = false
  · have ht : t = _ := testAck_due h.1 h.2
    rw [ht]
    exact ⟨fun _ => rfl, fun _ => .inr ⟨h.1, setFlag_has .power _⟩⟩
  · have ht : t = u := testAck_notDue h
    rw [ht]
    exact ⟨fun hr => Bool.not_eq_false _ ▸ fun ha => h ⟨hr, ha⟩, fun ha => .inl (hack.symm.trans ha)⟩

/-- The end of an event neither ends nor, without its mark, begins a transfer's acknowledgement (R91). -/
theorem conclude_ack (s : State) : let t := conclude s
    (t.handedOver → t.power.ack = true) ∧
    (t.power.ack = true → s.power.ack = true ∨ (t.handedOver ∧ t.port.flags.power = true)) := by
  obtain ⟨hpow, hpumps, hscreens, hflags⟩ := conclude_settled s
  obtain ⟨hdue, honly⟩ := settle_ack s
  generalize conclude s = t, settle s = u at hpow hpumps hscreens hflags hdue honly ⊢
  have hover : t.handedOver ↔ u.handedOver := by
    unfold State.handedOver claimSum State.pump
    rw [hpow, hpumps, hscreens]
  dsimp only
  rw [hover, hpow]
  exact ⟨hdue, fun ha => (honly ha).imp_right fun ⟨hr, hf⟩ => ⟨hr, hflags .power hf⟩⟩

theorem conclude_noAck {s : State} (h : s.power.transferring = false) (ha : s.power.ack = false) :
    (conclude s).power.ack = false := by
  obtain ⟨-, honly⟩ := conclude_ack s
  have htr : (conclude s).power.transferring = false := by
    have hp := (conclude_frame s).power
    generalize conclude s = t at hp ⊢
    rw [hp]
    exact h
  refine Bool.eq_false_iff.mpr fun k => ?_
  rcases honly k with hs | ⟨hr, -⟩
  · exact Bool.noConfusion (ha.symm.trans hs)
  · exact Bool.noConfusion (htr.symm.trans hr.1)

/-! The lines of the power supply at their expiries -/

section Lines

variable {s : State}

theorem powerLineMoved_derive {l : PowerLine} (hl : l = .mainsOk ∨ l = .genOn) (s : State) : powerLineMoved l s =
    if s.power.transferring then s else deriveSource s := by
  rcases hl with rfl | rfl <;> rfl

theorem powerLineMoved_request (h : s.power.transferReq.state = true) (ht : s.power.transferring = false) :
    powerLineMoved .transferReq s = beginTransfer s := by
  unfold powerLineMoved
  dsimp only
  rw [h, ht]
  rfl

theorem powerLineMoved_drop (h : s.power.transferReq.state = false) (ht : s.power.transferring = true) :
    powerLineMoved .transferReq s = endTransfer s := by
  unfold powerLineMoved
  dsimp only
  rw [h, ht]
  rfl

theorem exec_powerLine {l : PowerLine} (h : (s.power.line l).timer = some 0) :
    exec (.powerLineDebounceExpiry l) s =
      .next (conclude (powerLineMoved l (s.onPower (Power.onLine l Debounced.take)))) :=
  exec_due rfl (timerDue_on h)

end Lines

/-- What the end of an event leaves of the power supply. -/
theorem conclude_power (u : State) : let t := conclude u
    t.power = { u.power with ack := t.power.ack, queue := t.power.queue, stagger := t.power.stagger } ∧
    u.port.flags.within t.port.flags ∧ t.level = u.level ∧ t.balance = u.balance ∧ t.store = u.store := by
  have hc := conclude_frame u
  generalize conclude u = t at hc
  exact ⟨hc.power, hc.flags, hc.level, hc.balance, hc.store⟩

/-- Settles O27. -/
theorem sourceAndTransfer : Obligations.SourceAndTransfer := by
  refine ⟨fun s => ⟨deriveSource_same, fun h => ?_, ?_⟩, fun s ht => ⟨fun h => ?_, fun h => ?_, fun l hl h => ?_⟩,
    fun s ht l hl h => ?_, fun s h => ⟨fun hline ht => ?_, fun hline ht => ?_⟩, fun s => ⟨fun h => ?_, fun h => ?_⟩⟩
  · have hmoved : s.power.source ≠ s.power.derive := h
    rw [deriveSource_moved hmoved, sourceEdges_eq _ _ hmoved, Power.lines, bits_three]
    rfl
  · rfl
  · rw [exec_powerLine (l := .mainsOk) h, powerLineMoved_derive (.inl rfl)]
    exact congrArg (fun u => Outcome.next (conclude u)) (if_neg (ne_true_of_eq_false ht))
  · rw [exec_powerLine (l := .genOn) h, powerLineMoved_derive (.inr rfl)]
    exact congrArg (fun u => Outcome.next (conclude u)) (if_neg (ne_true_of_eq_false ht))
  · refine ⟨_, exec_powerLine h, ?_⟩
    have htr : (s.onPower (Power.onLine l Debounced.take)).power.transferring = false := by
      rcases hl with rfl | rfl <;> exact ht
    have hsrc : (s.onPower (Power.onLine l Debounced.take)).power.source = s.power.source := by
      rcases hl with rfl | rfl <;> rfl
    have hline : (s.onPower (Power.onLine l Debounced.take)).power.line l = lineTaken (s.power.line l) := by
      rcases hl with rfl | rfl <;> rfl
    rw [powerLineMoved_derive hl, if_neg (ne_true_of_eq_false htr)]
    obtain ⟨hp, hmoved, -, hl1, hb1, hs1⟩ := deriveSource_parts (s.onPower (Power.onLine l Debounced.take))
    obtain ⟨hp2, hf2, hl2, hb2, hs2⟩ := conclude_power (deriveSource (s.onPower (Power.onLine l Debounced.take)))
    generalize conclude (deriveSource (s.onPower (Power.onLine l Debounced.take))) = t at hp2 hf2 hl2 hb2 hs2 ⊢
    generalize deriveSource (s.onPower (Power.onLine l Debounced.take)) = u at hp hmoved hl1 hb1 hs1 hp2 hf2 hl2 hb2 hs2
    refine ⟨?_, ?_, fun hne => ?_, ?_, hl2.trans hl1, hb2.trans hb1, hs2.trans hs1⟩
    · rw [hp2, hp]
      rfl
    · rw [hp2, hp, ← hline]
      rcases hl with rfl | rfl <;> rfl
    · refine hf2 .power (hmoved fun hk => hne ?_)
      rw [hp2]
      exact hk.trans hsrc
    · rw [hp2, hp]
      exact htr
  · refine ⟨_, exec_powerLine h, ?_⟩
    have htr : (s.onPower (Power.onLine l Debounced.take)).power.transferring = true := by
      rcases hl with rfl | rfl <;> exact ht
    rw [powerLineMoved_derive hl, if_pos htr]
    obtain ⟨hp2, -⟩ := conclude_power (s.onPower (Power.onLine l Debounced.take))
    generalize conclude (s.onPower (Power.onLine l Debounced.take)) = t at hp2 ⊢
    rw [hp2]
    rcases hl with rfl | rfl <;> exact ⟨rfl, rfl, htr⟩
  · refine ⟨_, exec_powerLine (l := .transferReq) h, ?_⟩
    have hmade : (s.onPower (Power.onLine .transferReq Debounced.take)).power.transferReq.state = true := hline
    rw [powerLineMoved_request hmade ht]
    obtain ⟨hp2, hf2, hl2, hb2, hs2⟩ := conclude_power (beginTransfer (s.onPower (Power.onLine .transferReq Debounced.take)))
    have hflag : (beginTransfer (s.onPower (Power.onLine .transferReq Debounced.take))).port.flags.has .power = true :=
      setFlag_has ..
    generalize conclude (beginTransfer (s.onPower (Power.onLine .transferReq Debounced.take))) = t at hp2 hf2 hl2 hb2 hs2 ⊢
    have htr : t.power.transferring = true := by rw [hp2]; rfl
    exact ⟨htr, by rw [hp2]; rfl, if_pos htr, hf2 .power hflag, hl2, hb2, hs2⟩
  · have hdrop : (s.onPower (Power.onLine .transferReq Debounced.take)).power.transferReq.state = false := hline
    have heq : powerLineMoved .transferReq (s.onPower (Power.onLine .transferReq Debounced.take)) =
        deriveSource (setFlag .power { s with power := { s.power with
          transferReq := lineTaken s.power.transferReq, ack := false, transferring := false } }) :=
      powerLineMoved_drop hdrop ht
    refine ⟨_, exec_powerLine (l := .transferReq) h, by rw [heq], ?_⟩
    rw [heq]
    obtain ⟨hp, -, hf, hl1, hb1, hs1⟩ := deriveSource_parts (setFlag .power { s with power := { s.power with
      transferReq := lineTaken s.power.transferReq, ack := false, transferring := false } })
    have hset : (setFlag .power { s with power := { s.power with
        transferReq := lineTaken s.power.transferReq, ack := false, transferring := false } }).port.flags.has .power = true :=
      setFlag_has ..
    generalize deriveSource (setFlag .power { s with power := { s.power with
      transferReq := lineTaken s.power.transferReq, ack := false, transferring := false } }) = u at hp hf hl1 hb1 hs1 ⊢
    have hack : (conclude u).power.ack = false := conclude_noAck (by rw [hp]; rfl) (by rw [hp]; rfl)
    obtain ⟨hp2, hf2, hl2, hb2, hs2⟩ := conclude_power u
    generalize conclude u = t at hp2 hf2 hl2 hb2 hs2 hack ⊢
    refine ⟨by rw [hp2, hp]; rfl, hf2 .power (hf .power hset), hack, by rw [hp2, hp]; rfl, hl2.trans hl1, hb2.trans hb1,
      hs2.trans hs1⟩
  · obtain ⟨ht, ha, hc, hp⟩ := h
    exact testAck_due ⟨ht, hc, hp⟩ ha
  · exact testAck_notDue fun ⟨⟨ht, hc, hp⟩, ha⟩ => h ⟨ht, ha, hc, hp⟩

end Sys2Proof.Machine
end


section
/-!
SUPPORT. What the end of an event forms from the records: the horn, the beacon, the relay, the lamps and the end of
saturation (O9).
-/

namespace Sys2Proof.Machine

open Host (Outcome)

/-! What the transmitter leaves of the records -/

/-- A slot's record but for its town-current flag. -/
def Slot.face (sl : Slot) : Option Record := sl.record.map fun r => { r with townCurrent := false }

/-- Two tables whose records differ at most in their town-current flags. -/
structure SameFaces (t u : Table) : Prop where
  faces : u.slots.map Slot.face = t.slots.map Slot.face
  saturated : u.saturated = t.saturated

theorem SameFaces.refl (t : Table) : SameFaces t t := ⟨rfl, rfl⟩

theorem map_set_face {l : List Slot} {i : Nat} {x : Slot} (h : x.face = (l.getD i .fresh).face) :
    (l.set i x).map Slot.face = l.map Slot.face := by
  rcases Nat.lt_or_ge i l.length with hi | hi
  · rw [List.map_set, h, List.getD_eq_getElem?_getD, List.getElem?_eq_getElem hi, Option.getD_some]
    refine List.ext_getElem? fun j => ?_
    rw [List.getElem?_set]
    split
    next hj =>
      subst hj
      simp [hi]
    next => rfl
  · rw [List.set_eq_of_length_le hi]

theorem sendNoticeFrame_faces (o : Owing) (s : State) : SameFaces s.table (sendNoticeFrame o s).table := by
  unfold sendNoticeFrame
  dsimp only
  split
  · refine ⟨map_set_face ?_, rfl⟩
    show Option.map _ (Option.map _ (s.table.slot o.slot).record) = Option.map _ (s.table.slot o.slot).record
    cases (s.table.slot o.slot).record <;> rfl
  · exact ⟨map_set_face rfl, rfl⟩

theorem chooseJoined_faces (s : State) : SameFaces s.table (chooseJoined s).table := by
  unfold chooseJoined
  dsimp only
  split
  · exact .refl _
  · split
    · exact .refl _
    · split
      · exact .refl _
      · split
        · split
          · exact sendNoticeFrame_faces ..
          · exact .refl _
        · exact .refl _

theorem transmit_faces (s : State) : SameFaces s.table (transmit s).table := by
  unfold transmit
  split
  · exact .refl _
  · split
    · split
      · exact .refl _
      · exact .refl _
    · exact chooseJoined_faces s
    · exact chooseJoined_faces s
    · exact .refl _
    · exact .refl _

/-! Which records count (R146 to R150) -/

/-- An unshelved seated record of some kind. -/
def Table.counts (t : Table) (p : Record → Prop) : Prop :=
  ∃ sl ∈ t.slots, ∃ r, sl.record = some r ∧ r.shelved = false ∧ p r

theorem counts_face (t : Table) {p : Record → Prop} (hp : ∀ r, p { r with townCurrent := false } ↔ p r) :
    t.counts p ↔ ∃ x ∈ t.slots.map Slot.face, ∃ r, x = some r ∧ r.shelved = false ∧ p r := by
  constructor
  · rintro ⟨sl, hsl, r, hr, hs, hpr⟩
    exact ⟨sl.face, List.mem_map_of_mem hsl, { r with townCurrent := false }, by rw [Slot.face, hr]; rfl, hs,
      (hp r).mpr hpr⟩
  · rintro ⟨x, hx, r, rfl, hs, hpr⟩
    obtain ⟨sl, hsl, hface⟩ := List.mem_map.mp hx
    obtain ⟨r', hr', rfl⟩ := Option.map_eq_some_iff.mp hface
    exact ⟨sl, hsl, r', hr', hs, (hp r').mp hpr⟩

theorem SameFaces.counts {t u : Table} (h : SameFaces t u) {p : Record → Prop}
    (hp : ∀ r, p { r with townCurrent := false } ↔ p r) : u.counts p ↔ t.counts p := by
  rw [counts_face u hp, counts_face t hp, h.faces]

theorem counts_any (t : Table) (f : Record → Bool) :
    (t.records.any fun r => !r.shelved && f r) = true ↔ t.counts fun r => f r = true := by
  simp only [Table.records, Table.counts, List.any_eq_true, List.mem_filterMap, Bool.and_eq_true, Bool.not_eq_true']
  constructor
  · rintro ⟨r, ⟨sl, hsl, hr⟩, hs, hf⟩
    exact ⟨sl, hsl, r, hr, hs, hf⟩
  · rintro ⟨sl, hsl, r, hr, hs, hf⟩
    exact ⟨r, ⟨sl, hsl, hr⟩, hs, hf⟩

theorem Table.counts_congr {t : Table} {p q : Record → Prop} (h : ∀ r, p r ↔ q r) : t.counts p ↔ t.counts q :=
  exists_congr fun _ => and_congr_right fun _ => exists_congr fun r =>
    and_congr_right fun _ => and_congr_right fun _ => h r

theorem unseen_iff (r : Record) : r.unseen = true ↔ r.state = .raised ∨ r.state = .returned := by
  rw [Record.unseen, Bool.or_eq_true, decide_eq_true_eq, decide_eq_true_eq]

theorem undone_iff (r : Record) : r.undone = true ↔ r.state ≠ .dormant := decide_eq_true_iff

theorem beaconOn_iff (s : State) :
    beaconOn s = true ↔ s.table.counts fun r => r.severity = .critical ∧ r.state ≠ .dormant := by
  unfold beaconOn
  simp only [Bool.and_assoc]
  rw [counts_any]
  exact Table.counts_congr fun r => by rw [Bool.and_eq_true, decide_eq_true_eq, undone_iff]

theorem major_iff (v : Severity) : v.atLeast .major = true ↔ v = .major ∨ v = .critical := by cases v <;> decide

theorem relayOn_iff (s : State) : relayOn s = true ↔ s.level.anyPeriodEnd = true ∧
    ¬s.table.counts fun r => (r.severity = .major ∨ r.severity = .critical) ∧ r.state ≠ .dormant := by
  unfold relayOn
  simp only [Bool.and_assoc]
  rw [Bool.and_eq_true, Bool.not_eq_true', ← Bool.not_eq_true, counts_any]
  refine and_congr_right fun _ => not_congr (Table.counts_congr fun r => ?_)
  rw [Bool.and_eq_true, major_iff, undone_iff]

theorem hornDemand_iff (s : State) : hornDemand s = true ↔ s.table.counts fun r =>
    s.running.hornThreshold ≤ r.severity.code ∧ (r.state = .raised ∨ r.state = .returned) := by
  unfold hornDemand Record.sounds
  simp only [Bool.and_assoc]
  rw [counts_any]
  exact Table.counts_congr fun r => by rw [Bool.and_eq_true, decide_eq_true_eq, unseen_iff]

/-! The lamps (R150, R151) -/

/-- A lamp shows the aspect of the records that it matches. -/
def Table.shows (t : Table) (m : Record → Prop) (a : Aspect) : Prop :=
  (a = .flash ∧ t.counts fun r => m r ∧ (r.state = .raised ∨ r.state = .returned)) ∨
  (a = .steady ∧ (t.counts fun r => m r ∧ r.state = .acked) ∧
    ¬t.counts fun r => m r ∧ (r.state = .raised ∨ r.state = .returned)) ∨
  (a = .off ∧ ¬t.counts fun r => m r ∧ r.state ≠ .dormant)

theorem counts_filter (t : Table) (m f : Record → Bool) :
    (((t.records.filter fun r => !r.shelved).filter m).any f) = true ↔ t.counts fun r => m r = true ∧ f r = true := by
  rw [List.any_filter, List.any_filter, counts_any]
  exact Table.counts_congr fun r => Bool.and_eq_true_iff

theorem aspectOf_shows (t : Table) (m : Record → Bool) :
    t.shows (fun r => m r = true) (aspectOf ((t.records.filter fun r => !r.shelved).filter m)) := by
  have hseen := counts_filter t m Record.unseen
  have hacked := counts_filter t m fun r => decide (r.state = .acked)
  simp only [unseen_iff, decide_eq_true_eq] at hseen hacked
  unfold aspectOf
  split
  next h => exact .inl ⟨rfl, hseen.mp h⟩
  next h =>
    have hnot := fun k => h (hseen.mpr k)
    split
    next ha => exact .inr (.inl ⟨rfl, hacked.mp ha, hnot⟩)
    next ha =>
      refine .inr (.inr ⟨rfl, ?_⟩)
      rintro ⟨sl, hsl, r, hr, hs, hm, hd⟩
      cases hst : r.state with
      | raised => exact hnot ⟨sl, hsl, r, hr, hs, hm, .inl hst⟩
      | returned => exact hnot ⟨sl, hsl, r, hr, hs, hm, .inr hst⟩
      | acked => exact ha (hacked.mpr ⟨sl, hsl, r, hr, hs, hm, hst⟩)
      | dormant => exact hd hst

theorem SameFaces.shows {t u : Table} (h : SameFaces t u) {m : Record → Prop} {a : Aspect}
    (hm : ∀ r, m { r with townCurrent := false } ↔ m r) : u.shows m a ↔ t.shows m a := by
  unfold Table.shows
  rw [h.counts fun r => and_congr_left fun _ => hm r, h.counts fun r => and_congr_left fun _ => hm r,
    h.counts fun r => and_congr_left fun _ => hm r]

theorem lampAspect_unused {s : State} {v : Nat} (h : lampType v = 0) : lampAspect s v = .off := by
  unfold lampAspect
  rw [h]
  rfl

theorem lampAspect_selector {s : State} {v : Nat} (h : lampType v = 1) :
    s.table.shows (fun r => r.key.kind.cls.code = lampClass v ∧ r.key.kind.code = lampKind v ∧
      (lampNumber v = 0 ∨ r.key.number = lampNumber v)) (lampAspect s v) := by
  have hs := aspectOf_shows s.table fun r => r.selected (lampClass v) (lampNumber v) (lampKind v)
  simp only [Record.selected, Bool.and_eq_true, Bool.or_eq_true, decide_eq_true_eq, and_assoc] at hs
  unfold lampAspect
  rw [h]
  exact hs

theorem lampAspect_pump {s : State} {v : Nat} (h : lampType v = 2) {p : Ix6} (hp : p.num = lampNumber v) :
    lampAspect s v = if (s.pump p).feedback.state then .steady else .off := by
  unfold lampAspect
  rw [h]
  dsimp only
  rw [← hp, six?_num]
  rfl

theorem lampAspect_posted {s : State} {v : Nat} (h : lampType v = 3) :
    s.table.shows (fun r => r.key = ⟨.panelPosted, lampNumber v⟩) (lampAspect s v) := by
  have hs := aspectOf_shows s.table fun r => decide (r.key = ⟨.panelPosted, lampNumber v⟩)
  simp only [decide_eq_true_eq] at hs
  unfold lampAspect
  rw [h]
  exact hs

/-! Saturation (R126, R132) -/

theorem olderDormant_none {t : Table} {l : List Nat} {best : Option Nat} (h : l.foldl t.olderDormant best = none) :
    best = none ∧ ∀ i ∈ l, (t.slot i).dormantOrder? = none := by
  induction l generalizing best with
  | nil => exact ⟨h, by simp⟩
  | cons i l ih =>
    obtain ⟨hb, hl⟩ := ih h
    unfold Table.olderDormant at hb
    split at hb
    next hi => exact ⟨hb, List.forall_mem_cons.mpr ⟨hi, hl⟩⟩
    next => cases hb
    next => split at hb <;> cases hb

theorem place?_none {t : Table} (h : t.place? = none) :
    (∀ i, 1 ≤ i → i ≤ 47 → (t.slot i).record ≠ none) ∧ ∀ i, 1 ≤ i → i ≤ 47 → (t.slot i).dormantOrder? = none := by
  unfold Table.place? at h
  split at h
  · cases h
  next hv =>
    have hgeneral : ∀ i, 1 ≤ i → i ≤ 47 → i ∈ (List.range 48).filter (· ≠ 0) := fun i h1 h2 =>
      List.mem_filter.mpr ⟨List.mem_range.mpr (by omega), decide_eq_true (by omega)⟩
    refine ⟨fun i h1 h2 hn => ?_, fun i h1 h2 => (olderDormant_none h).2 i (hgeneral i h1 h2)⟩
    have := List.find?_eq_none.mp hv i (List.mem_range.mpr (by omega))
    simp [hn, show i ≠ 0 by omega] at this

theorem saturated_full {t : Table} (h : t.isSaturated = true) {i : Nat} (h1 : 1 ≤ i) (h2 : i ≤ 47) :
    ∃ r, (t.slot i).record = some r ∧ r.state ≠ .dormant := by
  obtain ⟨hseated, hawake⟩ := place?_none (Option.isNone_iff_eq_none.mp h)
  obtain ⟨r, hr⟩ := Option.ne_none_iff_exists'.mp (hseated i h1 h2)
  have hd := hawake i h1 h2
  refine ⟨r, hr, fun hs => ?_⟩
  rw [Slot.dormantOrder?, hr] at hd
  dsimp only at hd
  rw [if_pos hs] at hd
  cases hd

theorem setWaiting_saturated (l : List Waiting) (s : State) :
    (setWaiting l s).table.saturated = s.table.saturated := by
  unfold setWaiting
  split <;> rfl

theorem serveWaiting_saturated (n : Nat) (s : State) : (serveWaiting n s).table.saturated = s.table.saturated := by
  induction n generalizing s with
  | zero => rfl
  | succ n ih =>
    unfold serveWaiting
    split
    · obtain ⟨-, -, -, hseat⟩ := seat_lists _ _ _ _ _ (setWaiting _ s)
      rw [ih, hseat, setWaiting_saturated]
    · rfl

theorem returnKey_saturated (k : Key) (s : State) : (returnKey k s).table.saturated = s.table.saturated := by
  unfold returnKey
  split
  · split
    · exact (changeRecord_counts ..).2.1
    · dsimp only
      split
      · exact (changeRecord_counts ..).2.1
      · exact (serveWaiting_saturated ..).trans (changeRecord_counts ..).2.1
    · rfl
  · exact setWaiting_saturated ..

/-- After the test a table that is still saturated is full (R132). -/
theorem testSaturation_full {s : State} (h : (testSaturation s).table.saturated = true) :
    (testSaturation s).table.isSaturated = true := by
  unfold testSaturation at h ⊢
  split at h
  · rw [returnKey_saturated] at h
    cases h
  next hn =>
    rw [if_neg hn]
    rw [Bool.and_eq_true, Bool.not_eq_true', ← Bool.not_eq_true] at hn
    exact Classical.not_not.mp fun k => hn ⟨h, k⟩

theorem SameFaces.slot {t u : Table} (h : SameFaces t u) (i : Nat) : (u.slot i).face = (t.slot i).face := by
  have hget : ∀ l : List Slot, (l.getD i .fresh).face = (l.map Slot.face).getD i none := fun l =>
    by rw [List.getD_eq_getElem?_getD, List.getD_eq_getElem?_getD, List.getElem?_map]; cases l[i]? <;> rfl
  show (u.slots.getD i .fresh).face = (t.slots.getD i .fresh).face
  rw [hget, hget, h.faces]

theorem SameFaces.state {t u : Table} (h : SameFaces t u) {i : Nat} {r : Record} (hr : (t.slot i).record = some r) :
    ∃ r', (u.slot i).record = some r' ∧ r'.state = r.state := by
  have hf := h.slot i
  rw [Slot.face, Slot.face, hr] at hf
  obtain ⟨r', hr', he⟩ := Option.map_eq_some_iff.mp hf
  exact ⟨r', hr', (congrArg Record.state he :)⟩

/-! The end of every event -/

theorem annunciate_faces (u : State) : SameFaces u.table (transmit (annunciate u)).table := transmit_faces (annunciate u)

/-- The end of an event, as its last two parts leave it. -/
theorem conclude_formed (s : State) : ∃ u, SendFrame (annunciate u) (conclude s) ∧
    SameFaces u.table (conclude s).table ∧ (u.table.saturated = true → u.table.isSaturated = true) :=
  ⟨testSaturation (settle s), transmit_frame (annunciate _), annunciate_faces _, testSaturation_full⟩

theorem shows_lamp {t : Table} {m : Record → Prop} {a : Aspect} {l : Option Aspect} (hl : l = some a) (h : t.shows m a) :
    (l = some .flash ∧ t.counts fun r => m r ∧ (r.state = .raised ∨ r.state = .returned)) ∨
    (l = some .steady ∧ (t.counts fun r => m r ∧ r.state = .acked) ∧
      ¬t.counts fun r => m r ∧ (r.state = .raised ∨ r.state = .returned)) ∨
    (l = some .off ∧ ¬t.counts fun r => m r ∧ r.state ≠ .dormant) := by
  rw [hl]
  simp only [Option.some.injEq]
  exact h

theorem annunciate_lamp (s : State) {i : Nat} (h : i < 16) :
    (annunciate s).ann.lamps[i]? = some (lampAspect s (s.running.lamp (i + 1))) := by
  have hl : (annunciate s).ann.lamps = (List.range 16).map fun i => lampAspect s (s.running.lamp (i + 1)) := rfl
  rw [hl, List.getElem?_map, List.getElem?_range h]
  rfl

/-- Settles O9. -/
theorem endOfEventShedsAndForms : Obligations.EndOfEventShedsAndForms := by
  refine ⟨fun s h => conclude_free h, fun s => ?_⟩
  obtain ⟨u, hsend, hfaces, hfull⟩ := conclude_formed s
  obtain ⟨hack, honly⟩ := conclude_ack s
  generalize conclude s = t at hsend hfaces hack honly ⊢
  intro t counts
  have hrunning : t.running = u.running := congrArg Store.running hsend.store
  have hann : t.ann = (annunciate u).ann := hsend.ann
  have hlevel : t.level = u.level := hsend.level
  have hpump : ∀ p, t.pump p = u.pump p := fun p => congrArg (Six.get · p) hsend.pumps
  have hhorn : (counts fun r => t.running.hornThreshold ≤ r.severity.code ∧ (r.state = .raised ∨ r.state = .returned)) ↔
      hornDemand u = true := by
    rw [hornDemand_iff, hrunning]
    exact hfaces.counts fun r => Iff.rfl
  have hlamp : ∀ i, i < 16 → t.ann.lamps[i]? = some (lampAspect u (t.running.lamp (i + 1))) := fun i hi => by
    rw [hann, annunciate_lamp u hi, hrunning]
  refine ⟨?_, ?_, ?_, fun hs => ?_, ?_, fun i hi => ⟨fun hv => ?_, fun hv => ?_, fun hv p hp => ?_, fun hv => ?_⟩,
    fun hsat i h1 h2 => ?_, hack, honly⟩
  · rw [hann]
    exact (beaconOn_iff u).trans (hfaces.counts fun r => Iff.rfl).symm
  · rw [hann, hlevel]
    exact (relayOn_iff u).trans (and_congr_right fun _ => not_congr (hfaces.counts fun r => Iff.rfl).symm)
  · rw [hann, hhorn]
    show (hornDemand u && !u.ann.silence) = true ↔ (u.ann.silence && hornDemand u) = false ∧ hornDemand u = true
    cases hornDemand u <;> cases u.ann.silence <;> decide
  · rw [hann] at hs
    exact hhorn.mpr (Bool.and_eq_true_iff.mp hs).2
  · rw [hann]
    rfl
  · rw [hlamp i hi, lampAspect_unused hv]
  · exact shows_lamp (hlamp i hi) ((hfaces.shows fun r => Iff.rfl).mpr (lampAspect_selector hv))
  · rw [hlamp i hi, lampAspect_pump hv hp, hpump]
  · exact shows_lamp (hlamp i hi) ((hfaces.shows fun r => Iff.rfl).mpr (lampAspect_posted hv))
  · have hsat' : u.table.saturated = true := hfaces.saturated.symm.trans hsat
    obtain ⟨r, hr, hd⟩ := saturated_full (hfull hsat') h1 h2
    obtain ⟨r', hr', hst⟩ := hfaces.state hr
    exact ⟨r', hr', fun k => hd (hst.symm.trans k)⟩

end Sys2Proof.Machine
end


section
/-!
SUPPORT. RESET LOCKOUT and the notices that release a latched reason (O26).
-/

namespace Sys2Proof.Machine

open Host (Outcome)

/-! Lists of latched reasons -/

theorem filter_three {α : Type} (a b c : α) (f : α → Bool) : [a, b, c].filter f =
    (if f a then [a] else []) ++ (if f b then [b] else []) ++ (if f c then [c] else []) := by
  cases ha : f a <;> cases hb : f b <;> cases hc : f c <;> simp [ha, hb, hc]

theorem map_three {α β : Type} (g : α → β) (a b c : α) (x y z : Bool) :
    ((if x then [a] else []) ++ (if y then [b] else []) ++ (if z then [c] else [])).map g =
      (if x then [g a] else []) ++ (if y then [g b] else []) ++ (if z then [g c] else []) := by
  cases x <;> cases y <;> cases z <;> rfl

theorem foldl_three {α β : Type} (g : β → α → β) (a b c : α) (x y z : Bool) (i : β) :
    ((if x then [a] else []) ++ (if y then [b] else []) ++ (if z then [c] else [])).foldl g i =
      (fun j => if z then g j c else j) ((fun j => if y then g j b else j) (if x then g i a else i)) := by
  cases x <;> cases y <;> cases z <;> rfl

/-! A pump's latched reasons (R76, R77) -/

section PumpRelease

variable (p : Ix6) (s : State)

/-- Which of a pump's latched reasons have both halves (R76). -/
def Pump.goes (q : Pump) : Bool × Bool × Bool :=
  (q.locks.thermal && q.acks.thermal && !q.thermal.state, q.locks.trip && q.acks.trip && true,
    q.locks.failStart && q.acks.failStart && true)

/-- A pump's lockout set once the reasons with both halves are released. -/
def Pump.released (q : Pump) : PumpLocks :=
  { q.locks with
    thermal := q.locks.thermal && !q.goes.1, trip := q.locks.trip && !q.goes.2.1
    failStart := q.locks.failStart && !q.goes.2.2 }

theorem releasable_filter (q : Pump) : latchedReasons.filter q.releasable =
    (if q.goes.1 then [.thermal] else []) ++ (if q.goes.2.1 then [.trip] else []) ++
      (if q.goes.2.2 then [.failStart] else []) := filter_three ..

theorem released_eq (q : Pump) :
    (latchedReasons.filter q.releasable).foldl (fun l r => l.put r false) q.locks = q.released := by
  rw [releasable_filter, foldl_three]
  unfold Pump.released
  generalize q.goes = g
  obtain ⟨x, y, z⟩ := g
  cases x <;> cases y <;> cases z <;> simp [PumpLocks.put]

theorem releaseReasons_eq : releaseReasons p s =
    offerEdges ((if (s.pump p).goes.1 then [⟨.pumpThermal, p.num, none⟩] else []) ++
        (if (s.pump p).goes.2.1 then [⟨.pumpTrip, p.num, none⟩] else []) ++
        (if (s.pump p).goes.2.2 then [⟨.pumpFailStart, p.num, none⟩] else []))
      (s.onPump p fun q => { q with locks := (s.pump p).released }) := by
  have hpump : (s.onPump p fun q => { q with
      locks := (latchedReasons.filter (s.pump p).releasable).foldl (fun l r => l.put r false) q.locks }) =
      s.onPump p fun q => { q with locks := (s.pump p).released } := onPump_congr (by rw [released_eq])
  unfold releaseReasons
  dsimp only
  rw [hpump, releasable_filter, map_three]
  rfl

theorem releaseReasons_pump : (releaseReasons p s).pump p = { s.pump p with locks := (s.pump p).released } := by
  rw [releaseReasons_eq, (offerEdges_frame ..).pump, pump_onPump]

/-- The keys of a pump's latched reasons that are held. -/
def Pump.heldKeys (q : Pump) : List Key :=
  (if q.locks.thermal then [⟨.pumpThermal, p.num⟩] else []) ++ (if q.locks.trip then [⟨.pumpTrip, p.num⟩] else []) ++
    (if q.locks.failStart then [⟨.pumpFailStart, p.num⟩] else [])

/-- A pump with the mark of every latched reason that it holds. -/
def Pump.marked (q : Pump) : PumpAcks :=
  ⟨q.acks.thermal || q.locks.thermal, q.acks.trip || q.locks.trip, q.acks.failStart || q.locks.failStart⟩

theorem held_filter (l : PumpLocks) : latchedReasons.filter l.has =
    (if l.thermal then [.thermal] else []) ++ (if l.trip then [.trip] else []) ++
      (if l.failStart then [.failStart] else []) := filter_three ..

theorem marked_eq (q : Pump) :
    (latchedReasons.filter q.locks.has).foldl (fun a r => a.put r true) q.acks = q.marked := by
  rw [held_filter, foldl_three]
  unfold Pump.marked
  cases q.locks.thermal <;> cases q.locks.trip <;> cases q.locks.failStart <;> simp [PumpAcks.put]

theorem heldKeys_eq (q : Pump) :
    (latchedReasons.filter q.locks.has).map (fun r => (⟨r.kind, p.num⟩ : Key)) = q.heldKeys p := by
  rw [held_filter, map_three]
  rfl

theorem resetPump_eq : resetPump p s = if (s.pump p).heldKeys p = [] then (.already, s)
    else (.done, releaseReasons p (ackRaised ((s.pump p).heldKeys p)
      (s.onPump p fun q => { q with acks := (s.pump p).marked }))) := by
  have hacks : (s.onPump p fun q => { q with
      acks := (latchedReasons.filter (s.pump p).locks.has).foldl (fun a r => a.put r true) q.acks }) =
      s.onPump p fun q => { q with acks := (s.pump p).marked } := onPump_congr (by rw [marked_eq])
  have hnone : latchedReasons.filter (s.pump p).locks.has = [] ↔ (s.pump p).heldKeys p = [] := by
    rw [← heldKeys_eq, List.map_eq_nil_iff]
  unfold resetPump
  dsimp only
  rw [hacks, heldKeys_eq]
  exact ite_of_iff hnone rfl rfl

theorem takeReset_pump : takeReset 3 p.num s = resetPump p s := by
  unfold takeReset
  rw [six?_num]
  rfl

end PumpRelease

/-! A rake's reasons (R114, R115) -/

section RakeRelease

variable (n : Ix2) (s : State)

def Screen.goes (a : Screen) : Bool × Bool × Bool :=
  (a.locks.jam && a.acks.jam && true, a.locks.overload && a.acks.overload && !a.overload.state,
    a.locks.travel && a.acks.travel && true)

/-- A rake's lockout set once the reasons with both halves are released. -/
def Screen.released (a : Screen) : RakeLocks :=
  ⟨a.locks.jam && !a.goes.1, a.locks.overload && !a.goes.2.1, a.locks.travel && !a.goes.2.2⟩

theorem rakeReleasable_filter (a : Screen) : [RakeReason.jam, .overload, .travel].filter a.releasable =
    (if a.goes.1 then [.jam] else []) ++ (if a.goes.2.1 then [.overload] else []) ++
      (if a.goes.2.2 then [.travel] else []) := filter_three ..

theorem rakeReleased_eq (a : Screen) :
    ([RakeReason.jam, .overload, .travel].filter a.releasable).foldl (fun l r => l.put r false) a.locks =
      a.released := by
  rw [rakeReleasable_filter, foldl_three]
  unfold Screen.released
  generalize a.goes = g
  obtain ⟨x, y, z⟩ := g
  cases x <;> cases y <;> cases z <;> simp [RakeLocks.put]

/-- The returns of a rake's release, its set formed anew. -/
def rakeReturned : State :=
  offerEdges ((if (s.screen n).goes.1 then [⟨.rakeJam, n.num, none⟩] else []) ++
      (if (s.screen n).goes.2.1 then [⟨.rakeOverload, n.num, none⟩] else []) ++
      (if (s.screen n).goes.2.2 then [⟨.rakeTravel, n.num, none⟩] else []))
    (s.onScreen n fun a => { a with locks := (s.screen n).released })

theorem rakeReturned_screen : (rakeReturned n s).screen n = { s.screen n with locks := (s.screen n).released } := by
  unfold rakeReturned
  rw [(offerEdges_frame ..).screen, screen_onScreen]

theorem rakeLocks_empty (l : RakeLocks) : l.empty = true ↔ l = ⟨false, false, false⟩ := by
  obtain ⟨a, b, c⟩ := l
  cases a <;> cases b <;> cases c <;> decide

theorem releaseRake_eq : releaseRake n s =
    if (s.screen n).released = ⟨false, false, false⟩ ∧ (s.screen n).rake = .locked then
      joinQueue (.rake n) ((rakeReturned n s).onScreen n fun a => { a with
        rake := .waiting, homed := false, op := .home true, retries := 0, cycles := 0, saved := none
        up := false, down := false })
    else rakeReturned n s := by
  have hreturned : offerEdges (([RakeReason.jam, .overload, .travel].filter (s.screen n).releasable).map
        fun r => ⟨r.kind, n.num, none⟩) (s.onScreen n fun a => { a with
          locks := ([RakeReason.jam, .overload, .travel].filter (s.screen n).releasable).foldl
            (fun l r => l.put r false) a.locks }) = rakeReturned n s := by
    have hscreen : (s.onScreen n fun a => { a with
        locks := ([RakeReason.jam, .overload, .travel].filter (s.screen n).releasable).foldl
          (fun l r => l.put r false) a.locks }) =
        s.onScreen n fun a => { a with locks := (s.screen n).released } := onScreen_congr (by rw [rakeReleased_eq])
    rw [hscreen, rakeReleasable_filter, map_three]
    rfl
  unfold releaseRake
  dsimp only
  rw [hreturned, rakeReturned_screen, beginOp, onScreen_onScreen]
  exact ite_of_iff (by rw [Bool.and_eq_true, rakeLocks_empty, decide_eq_true_eq]) rfl rfl

theorem releaseRake_screen : ((releaseRake n s).screen n).locks = (s.screen n).released ∧
    ((releaseRake n s).screen n).acks = (s.screen n).acks := by
  rw [releaseRake_eq]
  split
  · rw [joinQueue_screen, screen_onScreen, rakeReturned_screen]
    exact ⟨rfl, rfl⟩
  · rw [rakeReturned_screen]
    exact ⟨rfl, rfl⟩

def Screen.heldKeys (a : Screen) : List Key :=
  (if a.locks.jam then [⟨.rakeJam, n.num⟩] else []) ++ (if a.locks.overload then [⟨.rakeOverload, n.num⟩] else []) ++
    (if a.locks.travel then [⟨.rakeTravel, n.num⟩] else [])

/-- A rake with the mark of every reason that it holds. -/
def Screen.marked (a : Screen) : RakeLocks :=
  ⟨a.acks.jam || a.locks.jam, a.acks.overload || a.locks.overload, a.acks.travel || a.locks.travel⟩

theorem rakeHeld_filter (l : RakeLocks) : [RakeReason.jam, .overload, .travel].filter l.has =
    (if l.jam then [.jam] else []) ++ (if l.overload then [.overload] else []) ++
      (if l.travel then [.travel] else []) := filter_three ..

theorem rakeMarked_eq (a : Screen) :
    ([RakeReason.jam, .overload, .travel].filter a.locks.has).foldl (fun k r => k.put r true) a.acks = a.marked := by
  rw [rakeHeld_filter, foldl_three]
  unfold Screen.marked
  cases a.locks.jam <;> cases a.locks.overload <;> cases a.locks.travel <;> simp [RakeLocks.put]

theorem rakeHeldKeys_eq (a : Screen) :
    ([RakeReason.jam, .overload, .travel].filter a.locks.has).map (fun r => (⟨r.kind, n.num⟩ : Key)) = a.heldKeys n := by
  rw [rakeHeld_filter, map_three]
  rfl

theorem resetRake_eq : resetRake n s = if (s.screen n).heldKeys n = [] then (.already, s)
    else (.done, releaseRake n (ackRaised ((s.screen n).heldKeys n)
      (s.onScreen n fun a => { a with acks := (s.screen n).marked }))) := by
  have hacks : (s.onScreen n fun a => { a with
      acks := ([RakeReason.jam, .overload, .travel].filter (s.screen n).locks.has).foldl (fun k r => k.put r true) a.acks }) =
      s.onScreen n fun a => { a with acks := (s.screen n).marked } := onScreen_congr (by rw [rakeMarked_eq])
  have hnone : [RakeReason.jam, .overload, .travel].filter (s.screen n).locks.has = [] ↔
      (s.screen n).heldKeys n = [] := by
    rw [← rakeHeldKeys_eq, List.map_eq_nil_iff]
  unfold resetRake
  dsimp only
  rw [hacks, rakeHeldKeys_eq]
  exact ite_of_iff hnone rfl rfl

theorem takeReset_screen : takeReset 4 n.num s = resetRake n s := by
  unfold takeReset
  rw [two?_num]
  cases n <;> rfl

end RakeRelease

theorem classOf?_some {c : Nat} {k : SourceClass} (h : classOf? c = some k) : c = k.code := by
  have hk := List.find?_some h
  simpa using (of_decide_eq_true hk).symm

theorem takeReset_nowhere {c n : Nat} (s : State) (hp : ∀ p : Ix6, ¬(c = 3 ∧ n = p.num))
    (hs : ∀ m : Ix2, ¬(c = 4 ∧ n = m.num)) : takeReset c n s = (.outOfRange, s) := by
  unfold takeReset
  split
  next p hc hn => exact absurd ⟨classOf?_some hc, num_of_six? hn⟩ (hp p)
  next m hc hn => exact absurd ⟨classOf?_some hc, num_of_two? hn⟩ (hs m)
  next => rfl

/-! Folds over the slots, each step on its own -/

/-- A fold of steps that each move one slot only moves a slot of its list as that slot's own step does, from a state
that the steps before it lead to. -/
theorem foldl_ownSlot {R : State → State → Prop} (hr : ∀ s, R s s) (ht : ∀ {s t u}, R s t → R t u → R s u)
    {g : State → Nat → State} (hg : ∀ s i, R s (g s i))
    (hne : ∀ s i j, j ≠ i → (g s i).table.slot j = s.table.slot j) {l : List Nat} (hl : l.Nodup) (s : State) (i : Nat) :
    (i ∉ l → (l.foldl g s).table.slot i = s.table.slot i) ∧
    (i ∈ l → ∃ u, R s u ∧ u.table.slot i = s.table.slot i ∧ R (g u i) (l.foldl g s) ∧
      (l.foldl g s).table.slot i = (g u i).table.slot i) := by
  induction l generalizing s with
  | nil => exact ⟨fun _ => rfl, nofun⟩
  | cons a l ih =>
    obtain ⟨ha, hl⟩ := List.nodup_cons.mp hl
    obtain ⟨hout, hin⟩ := ih hl (g s a)
    rw [List.foldl_cons]
    refine ⟨fun hi => ?_, fun hi => ?_⟩
    · obtain ⟨hia, hil⟩ := List.ne_and_not_mem_of_not_mem_cons hi
      exact (hout hil).trans (hne s a i hia)
    · by_cases hia : i = a
      · subst hia
        exact ⟨s, hr s, rfl, foldl_frame R hr ht g hg l _, hout ha⟩
      · obtain ⟨u, hu, hsame, hrest, hend⟩ := hin ((List.mem_cons.mp hi).resolve_left hia)
        exact ⟨u, ht (hg s a) hu, hsame.trans (hne s a i hia), hrest, hend⟩

/-- What changes of records leave: all but the table and the port, whose condition flag only rises. -/
def OnTable (s t : State) : Prop :=
  t = { s with table := t.table, port := t.port } ∧ (s.port.flags.condition = true → t.port.flags.condition = true)

theorem OnTable.refl (s : State) : OnTable s s := ⟨rfl, id⟩

theorem OnTable.trans {s t u : State} (h : OnTable s t) (k : OnTable t u) : OnTable s u :=
  ⟨by rw [k.1, h.1], k.2 ∘ h.2⟩

theorem OnTable.clock {s t : State} (h : OnTable s t) : t.clock = s.clock := by
  rw [h.1]

theorem changeRecord_onTable (i : Nat) (f : Record → Record) (s : State) : OnTable s (changeRecord i f s) := by
  unfold changeRecord
  split
  · exact .refl s
  · exact ⟨rfl, fun _ => rfl⟩

/-! The records RESET LOCKOUT acknowledges -/

section AckRaised

variable (ks : List Key)

/-- The step of `ackRaised` at one slot. -/
def ackSlot (s : State) (i : Nat) : State :=
  match (s.table.slot i).record with
  | some r => if r.state = .raised && ks.contains r.key then changeRecord i (Record.acknowledge .panel) s else s
  | none => s

theorem ackRaised_eq (s : State) : ackRaised ks s = (List.range 48).foldl (ackSlot ks) s := rfl

theorem ackSlot_onTable (s : State) (i : Nat) : OnTable s (ackSlot ks s i) := by
  unfold ackSlot
  split
  · split
    · exact changeRecord_onTable ..
    · exact .refl s
  · exact .refl s

theorem ackSlot_ne (s : State) (i j : Nat) (h : j ≠ i) : (ackSlot ks s i).table.slot j = s.table.slot j := by
  unfold ackSlot
  split
  · split
    · exact changeRecord_slot_ne h ..
    · rfl
  · rfl

theorem ackSlot_hit {ks : List Key} {s : State} {i : Nat} {r : Record} (h : (s.table.slot i).record = some r)
    (hr : r.state = .raised) (hk : r.key ∈ ks) : ackSlot ks s i = changeRecord i (Record.acknowledge .panel) s := by
  unfold ackSlot
  rw [h]
  exact if_pos (by simp [hr, hk])

theorem ackSlot_miss {ks : List Key} {s : State} {i : Nat}
    (h : ∀ r, (s.table.slot i).record = some r → r.state = .raised → r.key ∉ ks) : ackSlot ks s i = s := by
  unfold ackSlot
  split
  case h_1 r hr => exact if_neg (by simpa using h r hr)
  case h_2 => rfl

theorem ackRaised_onTable (s : State) : OnTable s (ackRaised ks s) :=
  foldl_frame OnTable .refl .trans _ (ackSlot_onTable ks) _ s

theorem ackRaised_own (s : State) {i : Nat} (hi : i < 48) : ∃ u, OnTable s u ∧ u.table.slot i = s.table.slot i ∧
    OnTable (ackSlot ks u i) (ackRaised ks s) ∧ (ackRaised ks s).table.slot i = (ackSlot ks u i).table.slot i :=
  (foldl_ownSlot .refl .trans (ackSlot_onTable ks) (ackSlot_ne ks) List.nodup_range s i).2 (List.mem_range.mpr hi)

theorem ackRaised_hit {ks : List Key} {s : State} {i : Nat} {r : Record} (hi : i < 48)
    (h : (s.table.slot i).record = some r) (hr : r.state = .raised) (hk : r.key ∈ ks) :
    ∃ o, (ackRaised ks s).table.slot i = { s.table.slot i with record := some { r with
        state := .acked, ackBy := .panel, lastChange := s.clock.station, changeOrder := o, townCurrent := false } } ∧
      (ackRaised ks s).port.flags.condition = true := by
  obtain ⟨u, hu, hsame, hrest, hend⟩ := ackRaised_own ks s hi
  have hrec : (u.table.slot i).record = some r := hsame ▸ h
  rw [ackSlot_hit hrec hr hk] at hrest hend
  refine ⟨nextOrder u.table.changeOrder, ?_, hrest.2 (changeRecord_flag hrec _)⟩
  rw [hend, changeRecord_slot hrec, hsame, hu.clock]
  unfold Record.acknowledge
  rw [hr]
  rfl

theorem ackRaised_miss {ks : List Key} {s : State} {i : Nat} (hi : i < 48)
    (h : ∀ r, (s.table.slot i).record = some r → r.state = .raised → r.key ∉ ks) :
    (ackRaised ks s).table.slot i = s.table.slot i := by
  obtain ⟨u, -, hsame, -, hend⟩ := ackRaised_own ks s hi
  rw [hend, ackSlot_miss (by rwa [hsame]), hsame]

theorem ackRaised_faces (s : State) : (ackRaised ks s).pumps = s.pumps ∧ (ackRaised ks s).screens = s.screens := by
  rw [(ackRaised_onTable ks s).1]
  exact ⟨rfl, rfl⟩

end AckRaised

/-! Notices (R129) -/

theorem sendNotice_pump {k : Kind} {r : PumpReason} (p : Ix6) (s : State) (h : pumpReason? k = some r) :
    sendNotice ⟨k, p.num⟩ s = pumpNotice p r s := by
  unfold sendNotice
  dsimp only
  rw [h, six?_num]

theorem sendNotice_rake {k : Kind} {r : RakeReason} (n : Ix2) (s : State) (h : pumpReason? k = none)
    (hr : rakeReason? k = some r) : sendNotice ⟨k, n.num⟩ s = rakeNotice n r s := by
  unfold sendNotice
  dsimp only
  rw [h, hr, two?_num]

theorem sendNotice_link {k : Key} (s : State) (h : k.kind = .linkProtocol) : sendNotice k s = linkNotice s := by
  obtain ⟨kind, n⟩ := k
  subst h
  rfl

theorem latched_reasons (k : Kind) (h : k.latched = false) :
    pumpReason? k = none ∧ rakeReason? k = none ∧ k ≠ .linkProtocol := by
  cases k <;> simp_all [Kind.latched, pumpReason?, rakeReason?]

theorem sendNotice_unlatched {k : Key} (s : State) (h : k.kind.latched = false) : sendNotice k s = s := by
  obtain ⟨hp, hr, hk⟩ := latched_reasons _ h
  unfold sendNotice
  rw [hp, hr]
  exact if_neg hk

/-! What RESET LOCKOUT and the notices leave of one asset -/

section Outcomes

variable (s : State)

theorem resetPump_held {p : Ix6} (h : (s.pump p).heldKeys p ≠ []) :
    takeReset 3 p.num s = (.done, releaseReasons p (ackRaised ((s.pump p).heldKeys p)
      (s.onPump p fun q => { q with acks := (s.pump p).marked }))) := by
  rw [takeReset_pump, resetPump_eq, if_neg h]

theorem resetPump_pump {p : Ix6} (h : (s.pump p).heldKeys p ≠ []) :
    (takeReset 3 p.num s).2.pump p = { s.pump p with
      acks := (s.pump p).marked
      locks := { s.pump p with acks := (s.pump p).marked : Pump }.released } := by
  have hack : (ackRaised ((s.pump p).heldKeys p) (s.onPump p fun q => { q with acks := (s.pump p).marked })).pump p =
      { s.pump p with acks := (s.pump p).marked } := by
    unfold State.pump
    rw [(ackRaised_faces ..).1]
    exact pump_onPump ..
  rw [resetPump_held s h, releaseReasons_pump, hack]

/-- With every held reason marked, only a THERMAL whose input is made stays. -/
theorem released_marked (q : Pump) : ({ q with acks := q.marked } : Pump).released =
    { q.locks with thermal := q.locks.thermal && q.thermal.state, trip := false, failStart := false } := by
  unfold Pump.released Pump.goes Pump.marked
  cases q.locks.thermal <;> cases q.locks.trip <;> cases q.locks.failStart <;> cases q.thermal.state <;> simp

theorem resetRake_held {n : Ix2} (h : (s.screen n).heldKeys n ≠ []) :
    takeReset 4 n.num s = (.done, releaseRake n (ackRaised ((s.screen n).heldKeys n)
      (s.onScreen n fun a => { a with acks := (s.screen n).marked }))) := by
  rw [takeReset_screen, resetRake_eq, if_neg h]

theorem resetRake_screen {n : Ix2} (h : (s.screen n).heldKeys n ≠ []) :
    ((takeReset 4 n.num s).2.screen n).locks = ({ s.screen n with acks := (s.screen n).marked } : Screen).released ∧
      ((takeReset 4 n.num s).2.screen n).acks = (s.screen n).marked := by
  have hack : (ackRaised ((s.screen n).heldKeys n)
      (s.onScreen n fun a => { a with acks := (s.screen n).marked })).screen n =
      { s.screen n with acks := (s.screen n).marked } := by
    unfold State.screen
    rw [(ackRaised_faces ..).2]
    exact screen_onScreen ..
  obtain ⟨hlocks, hacks⟩ := releaseRake_screen n (ackRaised ((s.screen n).heldKeys n)
    (s.onScreen n fun a => { a with acks := (s.screen n).marked }))
  rw [hack] at hlocks hacks
  rw [resetRake_held s h]
  exact ⟨hlocks, hacks⟩

/-- With every held reason marked, only an overload whose input is made stays. -/
theorem rakeReleased_marked (a : Screen) : ({ a with acks := a.marked } : Screen).released =
    ⟨false, a.locks.overload && a.overload.state, false⟩ := by
  unfold Screen.released Screen.goes Screen.marked
  cases a.locks.jam <;> cases a.locks.overload <;> cases a.locks.travel <;> cases a.overload.state <;> simp

theorem marked_thermal {q : Pump} (h : q.locks.thermal = true) : q.marked.thermal = true := by
  unfold Pump.marked
  rw [h, Bool.or_true]

theorem marked_overload {a : Screen} (h : a.locks.overload = true) : a.marked.overload = true := by
  unfold Screen.marked
  rw [h, Bool.or_true]

end Outcomes

/-! The notice of each latched kind -/

section NoticeKinds

variable (s : State) (p : Ix6) (n : Ix2)

theorem notice_thermal : sendNotice ⟨.pumpThermal, p.num⟩ s = if (s.pump p).locks.thermal then
    releaseReasons p (s.onPump p fun q => { q with acks := { q.acks with thermal := true } }) else s :=
  (sendNotice_pump (r := .thermal) p s rfl).trans rfl

theorem notice_trip : sendNotice ⟨.pumpTrip, p.num⟩ s = if (s.pump p).locks.trip then
    releaseReasons p (s.onPump p fun q => { q with acks := { q.acks with trip := true } }) else s :=
  (sendNotice_pump (r := .trip) p s rfl).trans rfl

theorem notice_failStart : sendNotice ⟨.pumpFailStart, p.num⟩ s = if (s.pump p).locks.failStart then
    releaseReasons p (s.onPump p fun q => { q with acks := { q.acks with failStart := true } }) else s :=
  (sendNotice_pump (r := .failStart) p s rfl).trans rfl

theorem notice_jam : sendNotice ⟨.rakeJam, n.num⟩ s = if (s.screen n).locks.jam then
    releaseRake n (s.onScreen n fun a => { a with acks := { a.acks with jam := true } }) else s :=
  (sendNotice_rake (r := .jam) n s rfl rfl).trans rfl

theorem notice_overload : sendNotice ⟨.rakeOverload, n.num⟩ s = if (s.screen n).locks.overload then
    releaseRake n (s.onScreen n fun a => { a with acks := { a.acks with overload := true } }) else s :=
  (sendNotice_rake (r := .overload) n s rfl rfl).trans rfl

theorem notice_travel : sendNotice ⟨.rakeTravel, n.num⟩ s = if (s.screen n).locks.travel then
    releaseRake n (s.onScreen n fun a => { a with acks := { a.acks with travel := true } }) else s :=
  (sendNotice_rake (r := .travel) n s rfl rfl).trans rfl

end NoticeKinds

/-- Settles O26: the latched reasons as lists of three, the fold over the slots one slot at a time, and the notices by
their kind. -/
theorem resetLockout : Obligations.ResetLockout := by
  refine ⟨fun s c n h => ⟨exec_resetLockout h c n, fun hp hs => ?_⟩, fun s p => ?_, fun s m => ?_,
    fun s k ks => ⟨fun hk => ?_, sendNotice_unlatched s, (ackRaised_onTable ks s).1, fun i hi =>
      ⟨fun r hr hraised hmem => ackRaised_hit hi hr hraised hmem, ackRaised_miss hi⟩⟩⟩
  · refine takeReset_nowhere s (fun p hcn => hp p ⟨BitVec.eq_of_toNat_eq hcn.1, hcn.2⟩)
      (fun m hcn => hs m ⟨BitVec.eq_of_toNat_eq hcn.1, hcn.2⟩)
  · intro q l marked held
    have hmarked : marked = s.onPump p fun x => { x with acks := q.marked } := onPump_congr rfl
    rw [hmarked]
    refine ⟨fun h => ?_, fun h => ⟨resetPump_held (p := p) s h, ?_, fun hl => ?_⟩, releaseReasons_eq p s,
      notice_thermal s p, notice_trip s p, notice_failStart s p⟩
    · rw [takeReset_pump, resetPump_eq]
      exact if_pos h
    · rw [resetPump_pump (p := p) s h]
      exact released_marked q
    · rw [resetPump_pump (p := p) s h]
      exact marked_thermal hl
  · intro q l marked held
    have hmarked : marked = s.onScreen m fun x => { x with acks := q.marked } := onScreen_congr rfl
    rw [hmarked]
    refine ⟨fun h => ?_, fun h => ⟨resetRake_held (n := m) s h, ?_, fun hl => ?_⟩, releaseRake_eq m s,
      notice_jam s m, notice_overload s m, notice_travel s m⟩
    · rw [takeReset_screen, resetRake_eq]
      exact if_pos h
    · exact (resetRake_screen (n := m) s h).1.trans (rakeReleased_marked q)
    · exact (congrArg RakeLocks.overload (resetRake_screen (n := m) s h).2).trans (marked_overload hl)
  · rw [sendNotice_link s hk]
    unfold linkNotice
    rfl

end Sys2Proof.Machine
end


section
/-!
SUPPORT. The end of a store write (O59) and the loss of the link (O51).
-/

namespace Sys2Proof.Machine

open Host (Outcome)

/-! The end of a store write (R196) -/

section StoreEnd

variable (s : State)

/-- The port's answer to the commit it waits for, by the phase it stood in. -/
def State.waited (b : Byte) (u : State) : State := u.onPort fun p => { p with
  phase := if s.port.phase = .executing then .result [b] else p.phase }

theorem answerCommit_eq {s u : State} (code : ReplyCode) (h : u.port.phase = s.port.phase) :
    answerCommit code u = s.waited (byte code.code) u := by
  unfold answerCommit State.waited
  rw [h]
  split <;> rfl

/-- A store write's end, in what stands after it. -/
theorem writeEnd_stands {i : Instr} {s u : State} {f : Store → Store} (code : ReplyCode)
    (hdue : eventDue i s = true) (hbody : eventBody? i s = some (answerCommit code u))
    (hf : EdgeFrame (setFlag .settings (s.onStore f)) u) :
    ∃ t, exec i s = .next t ∧ t = conclude (s.waited (byte code.code) u) ∧ t.store = f s.store ∧
      t.port.phase = (if s.port.phase = .executing then .result [byte code.code] else s.port.phase) ∧
      t.port.flags.settings = true ∧ t.level = s.level ∧ t.balance = s.balance ∧ t.clock = s.clock := by
  have hphase : u.port.phase = s.port.phase := by rw [hf.port]; rfl
  refine ⟨_, exec_due hbody hdue, congrArg conclude (answerCommit_eq code hphase), ?_⟩
  rw [answerCommit_eq code hphase]
  have hc := conclude_frame (s.waited (byte code.code) u)
  generalize conclude (s.waited (byte code.code) u) = t at hc
  refine ⟨hc.store.trans hf.store, ?_, hc.flags .settings (hf.flags .settings rfl), hc.level.trans hf.level,
    hc.balance.trans hf.balance, hc.clock.trans hf.clock⟩
  rw [hc.port]
  exact congrArg (fun x => if s.port.phase = .executing then Phase.result [byte code.code] else x) hphase

end StoreEnd

theorem goodWriteReturns_eq (st : Store) : goodWriteReturns st =
    (if st.writeFail then [⟨.storeWriteFail, 0, none⟩] else []) ++
      (if st.settingsFault then [⟨.settingsFault, 0, none⟩] else []) := by
  unfold goodWriteReturns
  cases st.writeFail <;> cases st.settingsFault <;> rfl

/-- Settles O59: each end of a write is its edges on the store it leaves, and then the port's answer. -/
theorem storeWriteEnds : Obligations.StoreWriteEnds := by
  intro s wait returns good bad
  refine ⟨fun h => ⟨?_, ?_⟩, fun h => ?_⟩
  · have hret : returns = goodWriteReturns s.store := (goodWriteReturns_eq s.store).symm
    rw [hret]
    exact writeEnd_stands (i := .storeWriteReport true) .done (Option.isSome_iff_ne_none.mpr h) rfl
      (offerEdges_frame (goodWriteReturns s.store) good)
  · exact writeEnd_stands (i := .storeWriteReport false) .storeFail (Option.isSome_iff_ne_none.mpr h) rfl
      (raiseKind_frame .storeWriteFail 0 [0] bad)
  · exact writeEnd_stands (i := .storeTimeoutExpiry) .storeFail (timerDue_on h) rfl
      (raiseKind_frame .storeWriteFail 0 [1] bad)

/-! The loss of the link (R180, R188) -/

/-- In LOST and OFFLINE nothing is taken for the line: the end of an event leaves the link. -/
theorem conclude_link {s : State} (h : s.link.state = .offline ∨ s.link.state = .lost) :
    (conclude s).link = s.link := by
  have hframe := settled_frame s
  have hstate : (testSaturation (settle s)).link.state = s.link.state := by
    refine hframe.wakes.resolve_right fun ⟨hq, _⟩ => ?_
    rw [hq] at h
    obtain h | h := h <;> cases h
  have hstill := hframe.still hstate
  have hends : conclude s = transmit (annunciate (testSaturation (settle s))) := rfl
  rw [hends]
  generalize testSaturation (settle s) = u at hstill
  by_cases hfree : u.link.sending = none
  · rw [transmit_idle (s := annunciate u) hfree (by rw [annunciate_link, hstill]; exact h.imp_right .inl)]
    exact hstill
  · rw [transmit_busy (s := annunciate u) (Option.isSome_iff_ne_none.mpr hfree)]
    exact hstill

theorem offerEdges_link {s : State} (es : List Edge) (h : s.link.state ≠ .quiet) : (offerEdges es s).link = s.link :=
  (offerEdges_frame es s).still ((offerEdges_frame es s).wakes.resolve_right fun ⟨hq, _⟩ => h hq)

theorem townReturns_eq (s : State) : townReturns s = (Ix6.all.map fun p =>
    if (s.pump p).townMark = true ∧ (s.pump p).panelMark = false then [(⟨.pumpInhibited, p.num, none⟩ : Edge)]
    else []).flatten := by
  unfold townReturns
  rw [← flatten_ite_singleton]
  congr 2
  funext p
  exact ite_of_iff (by rw [Bool.and_eq_true, Bool.not_eq_true']) rfl rfl

theorem six_flatten (f : Ix6 → List Edge) :
    (Ix6.all.map f).flatten = f .i1 ++ f .i2 ++ f .i3 ++ f .i4 ++ f .i5 ++ f .i6 := by
  simp [Ix6.all]

theorem drawdownReturn_eq (d : Duty) :
    drawdownReturn d = if d.drawdownTimer = none then [] else [⟨.drawdown, 0, none⟩] := by
  unfold drawdownReturn Duty.drawdownActive
  cases d.drawdownTimer <;> rfl

theorem endDrawdown_timer (d : Duty) : d.endDrawdown = { d with
    drawdown := if d.drawdownTimer = none then d.drawdown else 0, drawdownTimer := none } := by
  unfold Duty.endDrawdown Duty.drawdownActive
  obtain ⟨_, _, _, _, _, _ | _⟩ := d <;> rfl

/-- The link as a loss leaves it, before its edges. -/
def lostState (s : State) : State := setFlag .link { s with
  pumps := s.pumps.map fun q => { q with townMark := false, locks := { q.locks with townInhibit := false } }
  duty := { s.duty with
    drawdown := if s.duty.drawdownTimer = none then s.duty.drawdown else 0, drawdownTimer := none }
  link := { s.link with
    state := .lost, credits := 0, grant := none, period := none, requests := [], statusOwed := false
    wakesOwed := 0, heartbeatTimer := none, statusTimer := none, lossTimer := some 1000, lostCause := true } }

theorem enterLost_eq (s : State) : (enterLost s).onLink (fun l => { l with lostCause := true }) = lostState s := by
  exact congrArg (fun d => { lostState s with duty := d }) (endDrawdown_timer s.duty)

/-- The edges of the heartbeat timer's expiry. -/
def lossEdges (s : State) : List Edge := townReturns s ++ drawdownReturn s.duty ++
  [⟨.linkLost, 0, some [byte s.link.state.code, byte (s.link.period.getD 0)]⟩]

theorem lostState_pump (s : State) (p : Ix6) : (lostState s).pump p =
    { s.pump p with townMark := false, locks := { (s.pump p).locks with townInhibit := false } } := by
  cases p <;> rfl

/-- What stands after the loss. -/
theorem lost_stands (s : State) (es : List Edge) : let t := conclude (offerEdges es (lostState s))
    t.link = (lostState s).link ∧
    (∀ p, (t.pump p).townMark = false ∧ (t.pump p).locks = { (s.pump p).locks with townInhibit := false } ∧
      (t.pump p).panelMark = (s.pump p).panelMark) ∧
    t.duty.drawdownTimer = none ∧ (s.duty.drawdownTimer ≠ none → t.duty.drawdown = 0) ∧
    t.port.flags.link = true ∧ t.level = s.level ∧ t.balance = s.balance ∧ t.store = s.store ∧ t.clock = s.clock := by
  intro t
  have hf := offerEdges_frame es (lostState s)
  have hlink : (offerEdges es (lostState s)).link = (lostState s).link := offerEdges_link es (nofun)
  have hc : ConcludeFrame (offerEdges es (lostState s)) t := conclude_frame _
  have hend : t.link = (offerEdges es (lostState s)).link := conclude_link (by rw [hlink]; exact .inr rfl)
  have hpump : ∀ p, (offerEdges es (lostState s)).pump p = (lostState s).pump p := fun p =>
    congrArg (fun ps : Six Pump => ps.get p) hf.pumps
  clear_value t
  generalize offerEdges es (lostState s) = u at hf hlink hc hend hpump
  refine ⟨hend.trans hlink, fun p => ?_, ?_, fun h => ?_, hc.flags .link (hf.flags .link rfl), hc.level.trans hf.level,
    hc.balance.trans hf.balance, hc.store.trans hf.store, hc.clock.trans hf.clock⟩
  · rw [hc.pumps p, hpump p, lostState_pump]
    exact ⟨rfl, rfl, rfl⟩
  · rw [hc.duty, hf.duty]
    rfl
  · rw [hc.duty, hf.duty]
    exact if_neg h

/-- Settles O51: the state of the loss, its edges in the terms of the six pumps, and what the event's end leaves of both. -/
theorem linkIsLost : Obligations.LinkIsLost := by
  refine ⟨fun s ht hs => ?_, fun s x k n => ⟨rfl, rfl⟩⟩
  intro inhibit edges u
  have hcode : byte s.link.state.code = if s.link.state = .online then 2 else 3 := by
    obtain hs | hs := hs <;> rw [hs] <;> rfl
  have hedges : lossEdges s = edges := by
    unfold lossEdges
    rw [townReturns_eq, six_flatten, drawdownReturn_eq, hcode]
  have hdue : eventDue .heartbeatTimerExpiry s = true :=
    timerDue_and_on ht (by obtain hs | hs := hs <;> rw [hs] <;> rfl)
  have hbody : heartbeatExpires s = offerEdges edges (lostState s) := by
    rw [← hedges, ← enterLost_eq]
    rfl
  have hstands := lost_stands s edges
  have hu : lostState s = u := rfl
  clear_value u edges
  subst hu
  refine ⟨conclude (offerEdges edges (lostState s)), ?_, rfl, hstands⟩
  rw [exec_due (i := .heartbeatTimerExpiry) rfl hdue]
  exact congrArg (fun v => Outcome.next (conclude v)) hbody

end Sys2Proof.Machine
end


section
/-!
SUPPORT. JOIN-ACCEPT and HEARTBEAT (O50), with what every edge does to the slots: changes and seatings only.
-/

namespace Sys2Proof.Machine

open Host (Outcome)

/-! Edges as chains of changes and seatings (R123, R126) -/

/-- One step of an edge on the slots: a change, a seating, or something that leaves them. -/
inductive SlotStep : State → State → Prop
  | change (i : Nat) (f : Record → Record) (s : State) : SlotStep s (changeRecord i f s)
  | seat (i : Nat) (k : Key) (v : Severity) (x : List Byte) (m : Stamp) (s : State) : SlotStep s (Machine.seat i k v x m s)
  | other {s t : State} (h : t.table.slots = s.table.slots) : SlotStep s t

abbrev SlotChain : State → State → Prop := Reaches SlotStep

theorem SlotChain.of_slots {s t : State} (h : t.table.slots = s.table.slots) : SlotChain s t := .single (.other h)

theorem SlotChain.after {s t u : State} (h : SlotChain s t) (k : u.table.slots = t.table.slots) : SlotChain s u :=
  h.tail (.other k)

theorem SlotChain.before {s t u : State} (h : t.table.slots = s.table.slots) (k : SlotChain t u) : SlotChain s u :=
  .head (.other h) k

theorem enteredRaised_slotChain (r : Record) (s : State) : SlotChain s (enteredRaised r s) :=
  .of_slots (congrArg Table.slots (enteredRaised_table r s))

theorem setWaiting_slotChain (l : List Waiting) (s : State) : SlotChain s (setWaiting l s) :=
  .of_slots (setWaiting_slots l s)

theorem raiseSeated_slotChain (i : Nat) (v : Severity) (x : List Byte) (s : State) :
    SlotChain s (raiseSeated i v x s) := by
  unfold raiseSeated
  split
  · exact .refl
  · dsimp only
    split
    · exact (Reaches.single (.change ..)).trans (enteredRaised_slotChain ..)
    · exact .single (.change ..)

theorem countSuppression_slotChain (v : Severity) (s : State) : SlotChain s (countSuppression v s) := by
  have hcount : SlotChain s (s.onTable fun t => { t with suppressed := s.table.suppressed.add v, saturated := true }) :=
    .of_slots rfl
  unfold countSuppression
  dsimp only
  split
  · split
    · exact hcount
    · exact hcount.trans (.single (.change ..))
  · refine hcount.trans ?_
    unfold raiseSaturated
    dsimp only
    split
    · exact raiseSeated_slotChain ..
    · exact .single (.seat ..)

theorem serveWaiting_slotChain (n : Nat) (s : State) : SlotChain s (serveWaiting n s) := by
  induction n generalizing s with
  | zero => exact .refl
  | succ n ih =>
    unfold serveWaiting
    split
    · exact ((setWaiting_slotChain ..).trans (.single (.seat ..))).trans (ih _)
    · exact .refl

theorem raise_slotChain (k : Key) (v : Severity) (x : List Byte) (s : State) : SlotChain s (raise k v x s) := by
  have hcount : SlotChain s (countRaise s) := .of_slots rfl
  unfold raise
  dsimp only
  split
  · exact hcount.trans (raiseSeated_slotChain ..)
  · split
    · exact (hcount.trans (setWaiting_slotChain ..)).trans (countSuppression_slotChain ..)
    · split
      · exact hcount.trans (.single (.seat ..))
      · exact (hcount.trans (setWaiting_slotChain ..)).trans (countSuppression_slotChain ..)

theorem returnKey_slotChain (k : Key) (s : State) : SlotChain s (returnKey k s) := by
  unfold returnKey
  split
  · split
    · exact .single (.change ..)
    · dsimp only
      split
      · exact .single (.change ..)
      · exact (Reaches.single (.change ..)).trans (serveWaiting_slotChain ..)
    · exact .refl
  · exact setWaiting_slotChain ..

theorem unshelveSlot_slotChain (i : Nat) (s : State) : SlotChain s (unshelveSlot i s) := by
  unfold unshelveSlot
  split
  · exact .refl
  · dsimp only
    split
    · exact SlotChain.after (.single (.change i _ s)) rfl
    · exact .single (.change ..)

theorem makeChange_slotChain (c : Change) (s : State) : SlotChain s (makeChange c s) := by
  cases c with
  | edge e =>
    show SlotChain s (offerEdge e s)
    unfold offerEdge
    split
    · exact raise_slotChain ..
    · exact returnKey_slotChain ..
  | unshelve i =>
    show SlotChain s (enforceMaskAt i s)
    unfold enforceMaskAt
    split
    · exact unshelveSlot_slotChain ..
    · exact .refl

theorem makeNext_slotChain (n : Nat) (stages : List (List Change)) (free : List Change) (s : State) :
    SlotChain s (makeNext n stages free s) := by
  induction n generalizing stages free s with
  | zero => exact .refl
  | succ n ih =>
    unfold makeNext
    split
    · exact (makeChange_slotChain ..).trans (ih ..)
    · exact .refl

theorem offerEdges_slotChain (es : List Edge) (s : State) : SlotChain s (offerEdges es s) := makeNext_slotChain ..

theorem Chain.slotChain {s t : State} (h : Chain s t) : SlotChain s t := by
  induction h with
  | refl => exact .refl
  | tail _ hstep ih =>
    refine ih.trans ?_
    cases hstep
    case edges => exact offerEdges_slotChain ..
    all_goals exact SlotChain.of_slots rfl

theorem testSaturation_slotChain (s : State) : SlotChain s (testSaturation s) := by
  unfold testSaturation
  split
  · exact SlotChain.before (t := s.onTable fun t => { t with saturated := false }) rfl (returnKey_slotChain ..)
  · exact .refl

theorem testAck_slotChain (s : State) : SlotChain s (testAck s) := by
  refine .of_slots ?_
  unfold testAck
  split <;> rfl

/-- All that the end of an event does to the slots before a transmitter's choice. -/
theorem settled_slotChain (s : State) : SlotChain s (testSaturation (settle s)) :=
  ((settled_chain s).slotChain.trans (testAck_slotChain _)).trans (testSaturation_slotChain _)

/-! Nothing sent to the town yet (R144) -/

/-- No record is town-current and no gone notice is owed. -/
def Table.unsent (t : Table) : Prop :=
  ∀ sl ∈ t.slots, sl.goneOwed = none ∧ ∀ r, sl.record = some r → r.townCurrent = false

theorem Table.unsent_slot {t : Table} (h : t.unsent) (i : Nat) :
    (t.slot i).goneOwed = none ∧ ∀ r, (t.slot i).record = some r → r.townCurrent = false := by
  by_cases hi : i < t.slots.length
  · have hslot : t.slot i = t.slots[i] := by simp [Table.slot, hi]
    rw [hslot]
    exact h _ (List.getElem_mem hi)
  · rw [slot_of_ge (Nat.not_lt.mp hi)]
    exact ⟨rfl, fun r hr => (Option.some_ne_none r hr.symm).elim⟩

theorem Table.unsent_set {t : Table} (h : t.unsent) {sl : Slot} (i : Nat) (hg : sl.goneOwed = none)
    (hr : ∀ r, sl.record = some r → r.townCurrent = false) : ({ t with slots := t.slots.set i sl } : Table).unsent := by
  intro x hx
  cases List.mem_or_eq_of_mem_set hx with
  | inl hmem => exact h x hmem
  | inr heq => exact heq ▸ ⟨hg, hr⟩

theorem SlotStep.unsent {s t : State} (hst : SlotStep s t) (h : s.table.unsent) : t.table.unsent := by
  cases hst with
  | change i f =>
    unfold changeRecord
    split
    · exact h
    · exact Table.unsent_set h i (Table.unsent_slot h i).1 fun r hr => Option.some.inj hr ▸ rfl
  | seat i k v x m =>
    unfold Machine.seat
    dsimp only
    rw [enteredRaised_table]
    exact Table.unsent_set h i rfl fun r hr => Option.some.inj hr ▸ rfl
  | other hs =>
    intro sl hsl
    exact h sl (hs ▸ hsl)

theorem SlotChain.unsent {s t : State} (hst : SlotChain s t) (h : s.table.unsent) : t.table.unsent := by
  induction hst with
  | refl => exact h
  | tail _ hstep ih => exact hstep.unsent ih

theorem clearNoticeMarks_unsent (s : State) : (clearNoticeMarks s).table.unsent := by
  intro sl hsl
  obtain ⟨x, -, rfl⟩ := List.mem_map.mp hsl
  refine ⟨rfl, fun r hr => ?_⟩
  obtain ⟨y, -, rfl⟩ := Option.map_eq_some_iff.mp hr
  rfl

/-! A transmitter with a STATUS owed takes no notice (R175) -/

theorem transmit_status {s : State} (h : s.link.state = .online) (ht : s.link.statusOwed = true) :
    (transmit s).table = s.table ∧ (transmit s).link.credits = s.link.credits ∧
      (transmit s).link.offersOwed = s.link.offersOwed ∧ (transmit s).link.state = .online := by
  by_cases hfree : s.link.sending = none
  · rw [transmit_joined hfree (.inl h)]
    unfold chooseJoined
    dsimp only
    split
    · exact ⟨rfl, rfl, rfl, h⟩
    · split
      · exact ⟨rfl, rfl, rfl, h⟩
      · exact ⟨rfl, rfl, rfl, h⟩
  · rw [transmit_busy (Option.isSome_iff_ne_none.mpr hfree)]
    exact ⟨rfl, rfl, rfl, h⟩

theorem conclude_eq (s : State) : conclude s = transmit (annunciate (testSaturation (settle s))) := rfl

theorem conclude_status {s : State} (h : s.link.state = .online) (ht : s.link.statusOwed = true) :
    (s.table.unsent → (conclude s).table.unsent) ∧ (conclude s).link.credits = s.link.credits ∧
      (conclude s).link.offersOwed = s.link.offersOwed ∧ (conclude s).link.state = .online := by
  have hframe := settled_frame s
  have hchain := settled_slotChain s
  have hlink : (testSaturation (settle s)).link = s.link := hframe.still
    (hframe.wakes.resolve_right fun ⟨hq, _⟩ => by rw [h] at hq; cases hq)
  rw [conclude_eq]
  generalize testSaturation (settle s) = u at hlink hchain
  obtain ⟨htable, hcredits, hoffers, hstate⟩ := transmit_status (s := annunciate u)
    (by rw [annunciate_link, hlink]; exact h) (by rw [annunciate_link, hlink]; exact ht)
  rw [annunciate_link, hlink] at hcredits hoffers
  exact ⟨fun hs => htable ▸ hchain.unsent hs, hcredits, hoffers, hstate⟩

/-! The join (R178) -/

section Join

variable (town : Stamp) (grant period : Nat) (s : State)

/-- The link is ONLINE with its grant and period, the station clock set where the settings have it so, the notice marks
cleared. -/
def joined : State :=
  clearNoticeMarks (if s.running.acceptTownTime then setStation town (setFlag .link (s.onLink fun l => { l with
      state := .online, offerTimer := none, offersOwed := 0, grant := some grant, period := some period, credits := grant }))
    else setFlag .link (s.onLink fun l => { l with
      state := .online, offerTimer := none, offersOwed := 0, grant := some grant, period := some period, credits := grant }))

/-- A join after which the cause of LINK-PROTOCOL is absent. -/
def freed : State := if s.link.protocolCause then
    returnKey ⟨.linkProtocol, 0⟩ ((joined town grant period s).onLink fun l => { l with protocolCause := false })
  else joined town grant period s

/-- A join after which the cause of LINK-LOST is absent, too. -/
def found : State := if s.link.lostCause then
    returnKey ⟨.linkLost, 0⟩ ((freed town grant period s).onLink fun l => { l with lostCause := false })
  else freed town grant period s

theorem returnKey_link {k : Key} {s : State} (h : s.link.state ≠ .quiet) : (returnKey k s).link = s.link :=
  (returnKey_frame k s).still ((returnKey_frame k s).wakes.resolve_right fun ⟨hq, _⟩ => h hq)

theorem joined_link : (joined town grant period s).link = { s.link with
    state := .online, offerTimer := none, offersOwed := 0, grant := some grant, period := some period
    credits := grant } := by
  unfold joined
  split <;> rfl

theorem freed_link : (freed town grant period s).link =
    { (joined town grant period s).link with protocolCause := false } := by
  have hoff : ∀ l : Link, l.protocolCause = false → l = { l with protocolCause := false } :=
    fun l h => by rw [← h]
  unfold freed
  split
  case isTrue h =>
    have hstate : (joined town grant period s).link.state = .online := congrArg Link.state (joined_link ..)
    exact returnKey_link (s := (joined town grant period s).onLink fun l => { l with protocolCause := false })
      (fun hq => by cases hstate.symm.trans hq)
  case isFalse h => exact hoff _ (by rw [joined_link]; exact Bool.eq_false_iff.mpr h)

theorem found_link : (found town grant period s).link =
    { (freed town grant period s).link with lostCause := false } := by
  have hoff : ∀ l : Link, l.lostCause = false → l = { l with lostCause := false } :=
    fun l h => by rw [← h]
  unfold found
  split
  case isTrue h =>
    have hstate : (freed town grant period s).link.state = .online := by
      rw [freed_link, joined_link]
    exact returnKey_link (s := (freed town grant period s).onLink fun l => { l with lostCause := false })
      (fun hq => by cases hstate.symm.trans hq)
  case isFalse h => exact hoff _ (by rw [freed_link, joined_link]; exact Bool.eq_false_iff.mpr h)

theorem join_eq : join town grant period s = (found town grant period s).onLink fun l => { l with
    heartbeatTimer := some (100 * (3 * period)), statusOwed := true, statusTimer := some (100 * period) } := by
  have hfreed : (freed town grant period s).link.lostCause = s.link.lostCause := by rw [freed_link, joined_link]
  have hjoined : (joined town grant period s).link.protocolCause = s.link.protocolCause := by rw [joined_link]
  unfold found
  rw [← hfreed]
  unfold freed
  rw [← hjoined]
  rfl

/-- The link after a join. -/
theorem join_link : (join town grant period s).link = { s.link with
    state := .online, offerTimer := none, offersOwed := 0, grant := some grant, period := some period, credits := grant
    protocolCause := false, lostCause := false, heartbeatTimer := some (100 * (3 * period)), statusOwed := true
    statusTimer := some (100 * period) } := by
  rw [join_eq]
  exact congrArg (fun l : Link => { l with
    heartbeatTimer := some (100 * (3 * period)), statusOwed := true, statusTimer := some (100 * period) })
    ((found_link town grant period s).trans (by rw [freed_link, joined_link]))

/-- What a cause's end leaves, whether or not its return is offered. -/
theorem ended_parts (b : Bool) (k : Key) (f : Link → Link) (u : State) :
    let t := if b then returnKey k (u.onLink f) else u
    SlotChain u t ∧ t.clock = u.clock ∧ t.level = u.level ∧ t.balance = u.balance ∧ t.store = u.store ∧
      (u.port.flags.link = true → t.port.flags.link = true) := by
  have hf := returnKey_frame k (u.onLink f)
  cases b
  · exact ⟨.refl, rfl, rfl, rfl, rfl, id⟩
  · exact ⟨SlotChain.before (t := u.onLink f) rfl (returnKey_slotChain ..), hf.clock, hf.level, hf.balance, hf.store,
      hf.flags .link⟩

theorem joined_parts : let t := joined town grant period s
    t.clock = (if s.running.acceptTownTime then ⟨s.clock.uptime, town, true⟩ else s.clock) ∧ t.level = s.level ∧
      t.balance = s.balance ∧ t.store = s.store ∧ t.port.flags.link = true := by
  intro t
  unfold t joined
  split <;> exact ⟨rfl, rfl, rfl, rfl, rfl⟩

theorem join_parts : let t := join town grant period s
    t.table.unsent ∧ t.clock = (if s.running.acceptTownTime then ⟨s.clock.uptime, town, true⟩ else s.clock) ∧
      t.level = s.level ∧ t.balance = s.balance ∧ t.store = s.store ∧ t.port.flags.link = true := by
  obtain ⟨jclock, jlevel, jbalance, jstore, jflag⟩ := joined_parts town grant period s
  obtain ⟨fchain, fclock, flevel, fbalance, fstore, fflag⟩ := ended_parts s.link.protocolCause ⟨.linkProtocol, 0⟩
    (fun l => { l with protocolCause := false }) (joined town grant period s)
  obtain ⟨gchain, gclock, glevel, gbalance, gstore, gflag⟩ := ended_parts s.link.lostCause ⟨.linkLost, 0⟩
    (fun l => { l with lostCause := false }) (freed town grant period s)
  have hfreed : (freed town grant period s).table.unsent := SlotChain.unsent fchain (clearNoticeMarks_unsent _)
  have hfound : (found town grant period s).table.unsent := SlotChain.unsent gchain hfreed
  rw [join_eq]
  exact ⟨hfound,
    gclock.trans (fclock.trans jclock), glevel.trans (flevel.trans jlevel), gbalance.trans (fbalance.trans jbalance),
    gstore.trans (fstore.trans jstore), gflag (fflag jflag)⟩

end Join

/-! JOIN-ACCEPT's payload (R178) -/

theorem acceptOf?_valid {secs : BitVec 32} {ticks grant period : Byte} (ht : ticks.toNat ≤ 99) (hg : 1 ≤ grant.toNat)
    (hg8 : grant.toNat ≤ 8) (hp : 10 ≤ period.toNat) (hp60 : period.toNat ≤ 60) :
    acceptOf? (bytes4 secs.toNat ++ [ticks, grant, period]) =
      some (⟨secs.toNat, ticks.toNat⟩, grant.toNat, period.toNat) := by
  have hword : wordAt (bytes4 secs.toNat ++ [ticks, grant, period]) 0 4 = secs.toNat := natOfBytes_long secs
  unfold acceptOf?
  dsimp only
  rw [hword, if_pos]
  · rfl
  · simp [bytes4, byteAt, ht, hg, hg8, hp, hp60]

theorem acceptOf?_length {p : List Byte} (h : p.length ≠ 7) : acceptOf? p = none := by
  unfold acceptOf?
  dsimp only
  rw [if_neg]
  simp [h]

theorem acceptOf?_range {secs : BitVec 32} {ticks grant period : Byte} (h : 99 < ticks.toNat ∨ grant.toNat < 1 ∨
    8 < grant.toNat ∨ period.toNat < 10 ∨ 60 < period.toNat) :
    acceptOf? (bytes4 secs.toNat ++ [ticks, grant, period]) = none := by
  have hread : byteAt (bytes4 secs.toNat ++ [ticks, grant, period]) 4 = ticks.toNat ∧
    byteAt (bytes4 secs.toNat ++ [ticks, grant, period]) 5 = grant.toNat ∧
    byteAt (bytes4 secs.toNat ++ [ticks, grant, period]) 6 = period.toNat := ⟨rfl, rfl, rfl⟩
  obtain ⟨ht, hg, hp⟩ := hread
  unfold acceptOf?
  dsimp only
  rw [ht, hg, hp, if_neg]
  simp only [Bool.and_eq_true, decide_eq_true_eq]
  omega

theorem arrive_accept {s : State} (h : s.link.state = .joining) (p : List Byte) :
    arrive 2 0 p s = conclude (takeAccept p (hunt s)) := by
  have hs : (hunt s).link.state = .joining := h
  unfold arrive takeFrame
  rw [h, if_neg nofun, hs]
  rfl

theorem arrive_acceptElsewhere {s : State} (h : s.link.state = .online ∨ s.link.state = .quiet ∨ s.link.state = .lost)
    (p : List Byte) : arrive 2 0 p s = conclude (hunt s) := by
  have hs : (hunt s).link.state = s.link.state := rfl
  have htake : takeFrame 2 0 p (hunt s) = hunt s := by
    unfold takeFrame
    obtain h | h | h := h <;> rw [hs, h] <;> rfl
  have ho : s.link.state ≠ .offline := by obtain h | h | h := h <;> rw [h] <;> nofun
  rw [arrive, if_neg ho, htake]

theorem arrive_heartbeat {s : State} (h : s.link.state = .online ∨ s.link.state = .quiet) (p : List Byte) :
    arrive 3 0 p s = conclude (takeHeartbeat p (hunt s)) := by
  have hs : (hunt s).link.state = s.link.state := rfl
  have htake : takeFrame 3 0 p (hunt s) = takeHeartbeat p (hunt s) := by
    unfold takeFrame
    obtain h | h := h <;> rw [hs, h] <;> rfl
  have ho : s.link.state ≠ .offline := by obtain h | h := h <;> rw [h] <;> nofun
  rw [arrive, if_neg ho, htake]

/-! HEARTBEAT (R179) -/

/-- The heartbeat timer begun again, by the state. -/
def restarted (period : Nat) (s : State) : State := s.onLink fun l => { l with
  heartbeatTimer := some (100 * ((if l.state = .quiet then 18 else 3) * period)) }

theorem restarted_eq (period : Nat) (s : State) : (s.onLink fun l => { l with
    heartbeatTimer := seconds (if l.state = .quiet then 18 * period else 3 * period) }) = restarted period s := by
  unfold restarted State.onLink
  dsimp only
  split <;> rfl

theorem takeHeartbeat_one (b : Byte) (s : State) : takeHeartbeat [b] s = restarted (s.link.period.getD 0)
    (if s.link.grant.getD 0 < s.link.credits + b.toNat
      then protocolFault 1 3 (s.onLink fun l => { l with credits := min (s.link.grant.getD 0) (s.link.credits + b.toNat) })
      else s.onLink fun l => { l with credits := min (s.link.grant.getD 0) (s.link.credits + b.toNat) }) :=
  restarted_eq ..

theorem takeHeartbeat_within {b : Byte} {s : State} (h : s.link.credits + b.toNat ≤ s.link.grant.getD 0) :
    takeHeartbeat [b] s = restarted (s.link.period.getD 0)
      (s.onLink fun l => { l with credits := s.link.credits + b.toNat }) := by
  rw [takeHeartbeat_one, if_neg (Nat.not_lt.mpr h), Nat.min_eq_right h]

theorem takeHeartbeat_above {b : Byte} {s : State} (h : s.link.grant.getD 0 < s.link.credits + b.toNat) :
    takeHeartbeat [b] s = restarted (s.link.period.getD 0)
      (protocolFault 1 3 (s.onLink fun l => { l with credits := s.link.grant.getD 0 })) := by
  rw [takeHeartbeat_one, if_pos h, Nat.min_eq_left (Nat.le_of_lt h)]

theorem takeHeartbeat_length {p : List Byte} (h : p.length ≠ 1) (s : State) :
    takeHeartbeat p s = protocolFault 4 3 s := by
  unfold takeHeartbeat
  split
  · exact absurd rfl h
  · rfl

theorem exec_heartbeat {s : State} (h : s.link.state = .online ∨ s.link.state = .quiet) (p : List Byte) :
    exec (.heartbeat p) s = .next (conclude (takeHeartbeat p (hunt s))) := by
  rw [← arrive_heartbeat h]
  rfl

/-- What stands after a valid JOIN-ACCEPT. -/
theorem join_stands (town : Stamp) (grant period : Nat) (s : State) : let t := conclude (join town grant period s)
    t.link.state = .online ∧ t.link.grant = some grant ∧ t.link.period = some period ∧
      t.link.credits = grant ∧ t.link.offersOwed = 0 ∧ t.link.offerTimer = none ∧
      t.link.heartbeatTimer = some (100 * (3 * period)) ∧ t.link.statusTimer = some (100 * period) ∧
      t.link.lostCause = false ∧ t.link.protocolCause = false ∧
      (∀ i, i < 48 → (t.table.slot i).goneOwed = none ∧
        ∀ r, (t.table.slot i).record = some r → r.townCurrent = false) ∧
      t.clock = (if s.running.acceptTownTime then ⟨s.clock.uptime, town, true⟩ else s.clock) ∧
      t.port.flags.link = true ∧ t.level = s.level ∧ t.balance = s.balance ∧ t.store = s.store := by
  obtain ⟨hunsent, hclock, hlevel, hbalance, hstore, hflag⟩ := join_parts town grant period s
  have hlink := join_link town grant period s
  have hc := conclude_frame (join town grant period s)
  obtain ⟨ctable, ccredits, coffers, cstate⟩ := conclude_status (s := join town grant period s) (by rw [hlink]) (by rw [hlink])
  generalize join town grant period s = u at *
  generalize conclude u = t at *
  have hstill := hc.still (by rw [cstate, hlink])
  refine ⟨cstate, ?_, ?_, ?_, ?_, ?_, ?_, ?_, ?_, ?_, fun i _ => Table.unsent_slot (ctable hunsent) i,
    hc.clock.trans hclock, hc.flags .link hflag, hc.level.trans hlevel, hc.balance.trans hbalance, hc.store.trans hstore⟩
  · rw [hc.link, hlink]
  · rw [hc.link, hlink]
  · rw [ccredits, hlink]
  · rw [coffers, hlink]
  · rw [hc.link, hlink]
  · rw [hstill.1, hlink]
  · rw [hstill.2, hlink]
  · rw [hc.link, hlink]
  · rw [hc.link, hlink]

/-- Settles O50. -/
theorem joinAcceptAndHeartbeat : Obligations.JoinAcceptAndHeartbeat := by
  refine ⟨fun s secs ticks grant period p => ⟨fun hs => ⟨?_, ?_⟩, fun hs => ?_, fun hs => ?_⟩, ?_, ?_⟩
  · rintro rfl ht hg hg8 hp hp60
    have htake : takeAccept (bytes4 secs.toNat ++ [ticks, grant, period]) (hunt s) =
        join ⟨secs.toNat, ticks.toNat⟩ grant.toNat period.toNat (hunt s) := by
      unfold takeAccept
      rw [acceptOf?_valid ht hg hg8 hp hp60]
    have hstands := join_stands ⟨secs.toNat, ticks.toNat⟩ grant.toNat period.toNat (hunt s)
    refine ⟨conclude (join ⟨secs.toNat, ticks.toNat⟩ grant.toNat period.toNat (hunt s)), ?_, rfl, hstands⟩
    rw [← htake, ← arrive_accept hs]
    rfl
  · intro h
    have hnone : acceptOf? p = none := by
      obtain h | ⟨rfl, h⟩ := h
      · exact acceptOf?_length h
      · exact acceptOf?_range h
    have htake : takeAccept p (hunt s) = protocolFault 4 2 (hunt s) := by
      unfold takeAccept
      rw [hnone]
    rw [← htake, ← arrive_accept hs]
    rfl
  · rw [← arrive_acceptElsewhere hs p]
    rfl
  · exact congrArg Outcome.next (arrive_offline hs 2 0 p)
  · intro s town grant period
    exact join_eq town grant period s
  · refine fun s b p => ⟨fun hs => ?_, fun hs => ?_, fun hs => congrArg Outcome.next (arrive_offline hs 3 0 p)⟩
    · intro grant sum restart
      refine ⟨fun h => ?_, fun h => ?_, fun h => ?_⟩
      · rw [exec_heartbeat hs, takeHeartbeat_within (s := hunt s) h]
        rfl
      · rw [exec_heartbeat hs, takeHeartbeat_above (s := hunt s) h]
        rfl
      · rw [exec_heartbeat hs, takeHeartbeat_length h]
    · exact congrArg Outcome.next (arrive_dropped (k := 3) (hs.imp_left fun h => ⟨h, by decide⟩) 0 p)

end Sys2Proof.Machine
end


section
/-!
SUPPORT. The rake commands (O29), and a rake's lockout with its completion record (O31).
-/

namespace Sys2Proof.Machine

open Host (Outcome)

/-! The rake commands at the port (R104, R106 to R108) -/

section AtPort

variable {n : Nat} (h : ∀ m : Ix2, n ≠ m.num) (k : Nat) (s : State)
include h

theorem cmdRakeCycle_nowhere : cmdRakeCycle n s = reply .outOfRange [] s := by
  unfold cmdRakeCycle
  rw [two?_none h]

theorem cmdRakeHome_nowhere : cmdRakeHome n s = reply .outOfRange [] s := by
  unfold cmdRakeHome
  rw [two?_none h]

theorem cmdRakePosition_nowhere : cmdRakePosition n k s = reply .outOfRange [] s := by
  unfold cmdRakePosition
  rw [two?_none h]

theorem cmdRakeFinish_nowhere : cmdRakeFinish n k s = reply .outOfRange [] s := by
  unfold cmdRakeFinish
  rw [two?_none h]

theorem cmdSense_nowhere : cmdSense n s = reply .outOfRange [] s := by
  unfold cmdSense
  rw [two?_none h]

end AtPort

section Named

variable (n : Ix2) (k : Nat) (s : State)

theorem cmdRakeCycle_named : cmdRakeCycle n.num s = settleReply (takeRakeCycle n s) := by
  unfold cmdRakeCycle
  rw [two?_num]

theorem cmdRakeHome_named : cmdRakeHome n.num s = settleReply (takeRakeHome n s) := by
  unfold cmdRakeHome
  rw [two?_num]

theorem cmdRakePosition_named : cmdRakePosition n.num k s = settleReply (takeRakePosition n k s) := by
  unfold cmdRakePosition
  rw [two?_num]

theorem cmdRakeFinish_named : cmdRakeFinish n.num k s = settleReply (takeRakeFinish n k s) := by
  unfold cmdRakeFinish
  rw [two?_num]

theorem cmdSense_some {n : Ix2} {s : State} {c : Completion} (h : (s.screen n).completion = some c) :
    cmdSense n.num s = reply .done c.image (s.onScreen n fun a => { a with completion := none }) := by
  unfold cmdSense
  rw [two?_num]
  dsimp only
  rw [h]

theorem cmdSense_empty {n : Ix2} {s : State} (h : (s.screen n).completion = none) :
    cmdSense n.num s = reply .notFound [] s := by
  unfold cmdSense
  rw [two?_num]
  dsimp only
  rw [h]

end Named

/-! An operation begun from rest, or refused -/

section Take

variable {n : Ix2} {s : State} (p k : Nat)

/-- An operation begun from rest: the rake waits in the queue. -/
def begun (n : Ix2) (s : State) (op : Operation) : State := joinQueue (.rake n) (s.onScreen n fun a => { a with
  rake := .waiting, op := op, retries := 0, cycles := 0, saved := none, up := false, down := false })

theorem beginOp_begun (op : Operation) : beginOp n op s = begun n s op := rfl

theorem takeRakeCycle_refused (h : (s.screen n).rake = .locked ∨ (s.screen n).homed = false) :
    takeRakeCycle n s = (.wrongState, s) := if_pos (by simpa using h)

theorem takeRakeHome_locked (h : (s.screen n).rake = .locked) : takeRakeHome n s = (.wrongState, s) := if_pos h

theorem takeRakeHome_already (h : (s.screen n).rake ≠ .locked)
    (hh : (s.screen n).rake = .idle ∨ (s.screen n).homed = false) : takeRakeHome n s = (.already, s) :=
  (if_neg h).trans (if_pos (by simpa using hh))

theorem takeRakePosition_range {p : Nat} (h : s.running.maxTravel n < p) : takeRakePosition n p s = (.outOfRange, s) :=
  if_pos h

theorem takeRakePosition_refused {p : Nat} (hp : p ≤ s.running.maxTravel n)
    (h : (s.screen n).rake = .locked ∨ (s.screen n).rake = .held ∨ (s.screen n).homed = false) :
    takeRakePosition n p s = (.wrongState, s) :=
  (if_neg (Nat.not_lt.mpr hp)).trans (if_pos (by simpa [or_assoc] using h))

theorem takeRakeFinish_range {k : Nat} (h : 5 < k) : takeRakeFinish n k s = (.outOfRange, s) := if_pos h

theorem takeRakeFinish_refused {k : Nat} (hk : k ≤ 5)
    (h : (s.screen n).rake = .locked ∨ (s.screen n).rake = .held ∨ (s.screen n).homed = false) :
    takeRakeFinish n k s = (.wrongState, s) :=
  (if_neg (Nat.not_lt.mpr hk)).trans (if_pos (by simpa [or_assoc] using h))

/-- The count of a FINISH command. -/
def finishCount (n : Ix2) (k : Nat) (s : State) : Nat := if k = 0 then s.running.finishDefault n else k

theorem takeRakeCycle_idle (h : (s.screen n).rake = .idle) (hh : (s.screen n).homed = true) :
    takeRakeCycle n s = (.done, begun n s .cycle) := by
  unfold takeRakeCycle
  rw [if_neg (by simp [h, hh]), if_pos h]
  rfl

theorem takeRakePosition_idle {p : Nat} (hp : p ≤ s.running.maxTravel n) (h : (s.screen n).rake = .idle)
    (hh : (s.screen n).homed = true) : takeRakePosition n p s = (.done, if p = 0 then
      finishPosition n (s.onScreen n fun a => { a with retries := 0, cycles := 0 }) else begun n s (.position p)) := by
  unfold takeRakePosition
  rw [if_neg (Nat.not_lt.mpr hp), if_neg (by simp [h, hh]), if_pos h]
  split <;> rfl

theorem takeRakeFinish_idle {k : Nat} (hk : k ≤ 5) (h : (s.screen n).rake = .idle) (hh : (s.screen n).homed = true) :
    takeRakeFinish n k s = (.done, begun n s (.finish (finishCount n k s - 1))) := by
  unfold takeRakeFinish
  rw [if_neg (Nat.not_lt.mpr hk), if_neg (by simp [h, hh]), if_pos h]
  rfl

theorem takeRakeCycle_held (h : (s.screen n).rake = .held) (hh : (s.screen n).homed = true) :
    takeRakeCycle n s = (.done, begun n (returnKey ⟨.rakeHeld, n.num⟩ s) .cycle) := by
  unfold takeRakeCycle
  rw [if_neg (by simp [h, hh]), if_neg (by simp [h]), if_pos h]
  rfl

theorem takeRakeHome_held (h : (s.screen n).rake = .held) (hh : (s.screen n).homed = true) :
    takeRakeHome n s = (.done, if (s.screen n).home.state then homeAtOnce n (returnKey ⟨.rakeHeld, n.num⟩ s)
      else begun n (returnKey ⟨.rakeHeld, n.num⟩ s) (.home false)) := by
  unfold takeRakeHome
  rw [if_neg (by simp [h]), if_neg (by simp [h, hh]), if_pos h]
  rfl

/-! With an operation in hand -/

/-- A rake with an operation in hand. -/
structure InHand (a : Screen) : Prop where
  locked : a.rake ≠ .locked
  idle : a.rake ≠ .idle
  held : a.rake ≠ .held
  homed : a.homed = true

/-- The completion record of an operation that a command supersedes. -/
def goneRecord (n : Ix2) (s : State) (code : Nat) : State :=
  writeCompletion n code .superseded (s.screen n).cycles s

theorem takeRakeCycle_inHand (h : InHand (s.screen n)) :
    ((s.screen n).op = .cycle → takeRakeCycle n s = if (s.screen n).pending then (.already, s)
      else (.done, s.onScreen n fun a => { a with pending := true })) ∧
    (∀ j, (s.screen n).op = .finish j →
      takeRakeCycle n s = (.done, (goneRecord n s 4).onScreen n fun a => { a with op := .cycle })) ∧
    ((s.screen n).op.isCycle = false → takeRakeCycle n s = (.done, supersede n .cycle s)) := by
  obtain ⟨hl, hi, hd, hh⟩ := h
  unfold takeRakeCycle
  rw [if_neg (by simp [hl, hh]), if_neg hi, if_neg hd]
  refine ⟨fun ho => by rw [ho], fun j ho => by rw [ho]; rfl, fun ho => ?_⟩
  split
  next he => rw [he] at ho; cases ho
  next he => rw [he] at ho; cases ho
  next => rfl

theorem takeRakeFinish_inHand {k : Nat} (hk : k ≤ 5) (h : InHand (s.screen n)) :
    ((s.screen n).op = .cycle → takeRakeFinish n k s =
      (.done, s.onScreen n fun a => { a with op := .finish (finishCount n k s - 1) })) ∧
    (∀ j, (s.screen n).op = .finish j → takeRakeFinish n k s = (.done, (goneRecord n s 4).onScreen n fun a =>
      { a with op := .finish (finishCount n k s - 1), cycles := 0 })) ∧
    ((s.screen n).op.isCycle = false →
      takeRakeFinish n k s = (.done, supersede n (.finish (finishCount n k s - 1)) s)) := by
  obtain ⟨hl, hi, hd, hh⟩ := h
  unfold takeRakeFinish
  rw [if_neg (Nat.not_lt.mpr hk), if_neg (by simp [hl, hd, hh]), if_neg hi]
  refine ⟨fun ho => by rw [ho]; rfl, fun j ho => by rw [ho]; rfl, fun ho => ?_⟩
  split
  next he => rw [he] at ho; cases ho
  next he => rw [he] at ho; cases ho
  next => rfl

theorem takeRakePosition_inHand {p : Nat} (hp : p ≤ s.running.maxTravel n) (h : InHand (s.screen n)) :
    takeRakePosition n p s = (.done, supersede n (.position p) s) := by
  obtain ⟨hl, hi, hd, hh⟩ := h
  unfold takeRakePosition
  rw [if_neg (Nat.not_lt.mpr hp), if_neg (by simp [hl, hd, hh]), if_neg hi]

theorem takeRakeHome_inHand (h : InHand (s.screen n)) :
    ((s.screen n).op = .home true ∨ (s.screen n).op = .home false → takeRakeHome n s = (.already, s)) ∧
    ((s.screen n).op ≠ .home true → (s.screen n).op ≠ .home false → takeRakeHome n s = (.done,
      if (s.screen n).home.state then homeAtOnce n ((goneRecord n s (s.screen n).op.code).onScreen n fun a =>
        { a with dwell := none, reverse := none, jamTimer := none, saved := none })
      else supersede n (.home false) s)) := by
  obtain ⟨hl, hi, hd, hh⟩ := h
  unfold takeRakeHome
  rw [if_neg hl, if_neg (by simp [hi, hh]), if_neg hd]
  refine ⟨fun ho => by obtain ho | ho := ho <;> rw [ho], fun ht hf => ?_⟩
  split
  next b he => cases b <;> contradiction
  next => split <;> rfl

/-! A command that supersedes (R109) -/

theorem supersede_eq (op : Operation) : supersede n op s =
    (fun u : State => if (s.screen n).rake = .waiting ∨ (s.screen n).rake = .paused
      then u.onScreen n fun a => { a with rake := .waiting } else firstStage n u)
    ((goneRecord n s (s.screen n).op.code).onScreen n fun a => { a with
      grip := if (s.screen n).op.isCycle then false else (s.screen n).grip, dwell := none, reverse := none
      jamTimer := none, saved := none, op := op, retries := 0, cycles := 0 }) := by
  have hscreen : (goneRecord n s (s.screen n).op.code).onScreen n (fun a => { a with
        grip := if a.op.isCycle then false else a.grip, dwell := none, reverse := none, jamTimer := none
        saved := none, op := op, retries := 0, cycles := 0 }) =
      (goneRecord n s (s.screen n).op.code).onScreen n fun a => { a with
        grip := if (s.screen n).op.isCycle then false else (s.screen n).grip, dwell := none, reverse := none
        jamTimer := none, saved := none, op := op, retries := 0, cycles := 0 } :=
    onScreen_congr (by unfold goneRecord; rw [writeCompletion_screen])
  rw [← hscreen]
  exact ite_of_iff (by simp) rfl rfl

theorem homeAtOnce_eq : homeAtOnce n s = finishHoming n (clearShed (.rake n) (leaveQueue (.rake n) (s.onScreen n fun a =>
    { a with op := .home false, retries := 0, cycles := 0 }))) := rfl

end Take

theorem takenReply (code : Byte) (ps : List Byte) (s : State) :
    reply .outOfRange [] (s.taken code ps) = s.answered [6] := rfl

/-- Settles O29, command by command and state by state. -/
theorem rakeCommands : Obligations.RakeCommands := by
  refine ⟨fun s b k w h => ⟨fun n hn => ⟨?_, ?_, ?_, ?_⟩, fun hn => ⟨?_, ?_, ?_, ?_⟩⟩, fun s n p k => ?_, fun s n p k => ?_,
    fun s n m op => ⟨supersede_eq op, homeAtOnce_eq, rfl, rfl⟩⟩
  · rw [exec_rakeCycle h, hn, cmdRakeCycle_named]
    rfl
  · rw [exec_rakeHome h, hn, cmdRakeHome_named]
    rfl
  · rw [exec_rakePosition h, hn, cmdRakePosition_named]
    rfl
  · rw [exec_rakeFinish h, hn, cmdRakeFinish_named]
    rfl
  · rw [exec_rakeCycle h, cmdRakeCycle_nowhere hn, takenReply]
  · rw [exec_rakeHome h, cmdRakeHome_nowhere hn, takenReply]
  · rw [exec_rakePosition h, cmdRakePosition_nowhere hn, takenReply]
  · rw [exec_rakeFinish h, cmdRakeFinish_nowhere hn, takenReply]
  · refine ⟨takeRakeCycle_refused, takeRakeHome_locked, takeRakeHome_already, takeRakePosition_range,
      takeRakePosition_refused, takeRakeFinish_range, takeRakeFinish_refused,
      fun h hh => ⟨takeRakeCycle_idle h hh, fun hp hm => ?_, ?_, fun hk => takeRakeFinish_idle hk h hh⟩,
      fun h hh => ⟨takeRakeCycle_held h hh, takeRakeHome_held h hh⟩⟩
    · rw [takeRakePosition_idle hm h hh, if_neg (Nat.pos_iff_ne_zero.mp hp)]
      rfl
    · rw [takeRakePosition_idle (Nat.zero_le _) h hh, if_pos rfl]
  · intro sc hl hi hd hh gone count
    have hin : InHand (s.screen n) := ⟨hl, hi, hd, hh⟩
    obtain ⟨ccycle, cfinish, cother⟩ := takeRakeCycle_inHand hin
    obtain ⟨halready, hhome⟩ := takeRakeHome_inHand hin
    refine ⟨fun ho => ⟨ccycle ho, fun hk => (takeRakeFinish_inHand hk hin).1 ho⟩,
      fun j ho => ⟨cfinish j ho, fun hk => (takeRakeFinish_inHand hk hin).2.1 j ho⟩,
      fun ho => ⟨cother ho, fun hk => (takeRakeFinish_inHand hk hin).2.2 ho⟩,
      fun hp => takeRakePosition_inHand hp hin, halready, fun ht hf => ⟨fun hm => ?_, fun hm => ?_⟩⟩
    · rw [hhome ht hf, if_neg (Bool.eq_false_iff.mp hm)]
    · rw [hhome ht hf, if_pos hm]
      rfl

/-! Entry to LOCKED (R113) -/

section Lockout

variable {n : Ix2} {s : State}

theorem enterLocked_screen (o : RakeOutcome) : (enterLocked n o s).screen n = { s.screen n with
    rake := .locked, op := .none, saved := none, claim := none, grip := false, up := false, down := false
    jamTimer := none, dwell := none, reverse := none
    completion := some ⟨(s.screen n).completion.isSome, (s.screen n).op.code, o, (s.screen n).position,
      (s.screen n).cycles, s.clock.station⟩
    shedMark := if (s.screen n).rake = .waiting ∨ (s.screen n).rake = .paused then false else (s.screen n).shedMark } := by
  have hwait : (if (s.screen n).queued then waitNoMore (.rake n) s else s).screen n = { s.screen n with
      shedMark := if (s.screen n).rake = .waiting ∨ (s.screen n).rake = .paused then false
        else (s.screen n).shedMark } ∧
      (if (s.screen n).queued then waitNoMore (.rake n) s else s).clock = s.clock := by
    by_cases hq : (s.screen n).rake = .waiting ∨ (s.screen n).rake = .paused
    · rw [if_pos ((screen_queued_iff _).mpr hq), if_pos hq, waitNoMore_screen]
      exact ⟨rfl, (waitNoMore_only ..).clock⟩
    · rw [if_neg fun e => hq ((screen_queued_iff _).mp e), if_neg hq]
      exact ⟨rfl, rfl⟩
  unfold enterLocked
  dsimp only
  rw [screen_onScreen, writeCompletion_screen, hwait.1, hwait.2]
  rfl

/-- A rake's reason added, its mark clear. -/
def reasonAdded (n : Ix2) (r : RakeReason) (s : State) : State :=
  s.onScreen n fun a => { a with locks := a.locks.put r true, acks := a.acks.put r false }

theorem reasonAdded_screen (r : RakeReason) : (reasonAdded n r s).screen n =
    { s.screen n with locks := (s.screen n).locks.put r true, acks := (s.screen n).acks.put r false } :=
  screen_onScreen ..

theorem lockRake_locked (r : RakeReason) (x : List Byte) (h : (s.screen n).rake = .locked) :
    lockRake n r x s = offerEdges [⟨r.kind, n.num, some x⟩] (reasonAdded n r s) :=
  if_pos (by rw [screen_onScreen]; exact h)

theorem lockRake_enters (r : RakeReason) (x : List Byte) (h : (s.screen n).rake ≠ .locked) :
    lockRake n r x s = offerEdges (⟨r.kind, n.num, some x⟩ :: lockedReturns n (reasonAdded n r s))
      (enterLocked n r.outcome (reasonAdded n r s)) :=
  if_neg (by rw [screen_onScreen]; exact h)

theorem enterLocked_queue (o : RakeOutcome) (h : (s.screen n).rake = .waiting ∨ (s.screen n).rake = .paused) :
    .rake n ∉ (enterLocked n o s).power.queue := by
  unfold enterLocked
  dsimp only
  rw [if_pos ((screen_queued_iff _).mpr h)]
  exact writeCompletion_queue n (s.screen n).op.code o (s.screen n).cycles (waitNoMore (.rake n) s) ▸
    not_mem_waitNoMore _ s

theorem lockRake_pumps (r : RakeReason) (x : List Byte) : (lockRake n r x s).pumps = s.pumps := by
  unfold lockRake enterLocked
  dsimp only
  split
  · exact (offerEdges_frame ..).pumps
  · refine (offerEdges_frame ..).pumps.trans ?_
    split <;> rfl

end Lockout

/-- Settles O31. -/
theorem rakeLockoutAndCompletion : Obligations.RakeLockoutAndCompletion := by
  refine ⟨fun s n r x => ?_, fun s n b => ⟨fun op o k => ⟨?_, rfl⟩, fun h hb => ⟨fun c hc => ?_, fun hc => ?_⟩,
    fun h hb => ?_⟩⟩
  · intro sc t waits
    have hwired := lockRake_wired n r x s
    refine ⟨fun h => ⟨?_, fun hw => ?_, ?_⟩, fun h => ?_, fun m hm => (lockRake_only n r x s).screens m (by simpa using hm),
      lockRake_pumps r x, hwired.level, hwired.balance, hwired.store⟩
    · unfold t
      rw [lockRake_enters r x h, (offerEdges_frame ..).screen, enterLocked_screen, reasonAdded_screen]
      rfl
    · unfold t
      rw [lockRake_enters r x h, (offerEdges_frame ..).power]
      exact enterLocked_queue _ (by rw [reasonAdded_screen]; exact hw)
    · unfold t
      rw [lockRake_enters r x h]
      exact (offerEdges_frame ..).flags .screen rfl
    · unfold t
      rw [lockRake_locked r x h, (offerEdges_frame ..).screen, reasonAdded_screen]
  · rw [writeCompletion_screen]
  · rw [exec_senseScreen h, hb, cmdSense_some (s := s.taken 0x25 [b]) hc]
    rfl
  · rw [exec_senseScreen h, hb, cmdSense_empty (s := s.taken 0x25 [b]) hc]
    rfl
  · rw [exec_senseScreen h, cmdSense_nowhere hb, takenReply]

end Sys2Proof.Machine
end


section
/-!
SUPPORT. A rake's pulses, dwells, jams and limits, and the screens at a period end (O30).
-/

namespace Sys2Proof.Machine

open Host (Outcome)

/-! Pulses (R96, R107, R111) -/

section Pulse

variable {n : Ix2} {s : State}

/-- A rake locked for travel, with the leg's direction and the position. -/
def travelLocked (n : Ix2) (d : Dir) (t : State) : State :=
  lockRake n .travel ((if d = .up then (1 : Byte) else 0) :: bytes2 (t.screen n).position) t

theorem lockTravel_eq {d : Dir} {t : State} (h : (t.screen n).leg = d) : lockTravel n t = travelLocked n d t := by
  unfold lockTravel travelLocked
  rw [h]
  cases d <;> rfl

/-- The jam timer begun again, and a POSITION that is at its target ended, by the rake's state and operation. -/
def counted (n : Ix2) (a : Screen) (t : State) : State :=
  (fun u : State => if a.rake = .positioning ∧ a.op = .position (t.screen n).position then finishPosition n u else u)
  (t.onScreen n fun a => { a with jamTimer := some (100 * t.running.jamTime n) })

theorem afterPulse_eq {a : Screen} {t : State} (hr : (t.screen n).rake = a.rake) (ho : (t.screen n).op = a.op) :
    afterPulse n t = counted n a t := by
  unfold afterPulse counted
  dsimp only
  rw [screen_onScreen, ← hr, ← ho]
  dsimp only
  split
  next p hr ho =>
    refine ite_of_iff ?_ rfl rfl
    rw [hr, ho]
    simp [eq_comm]
  next h => exact (if_neg fun ⟨hr, ho⟩ => h _ hr ho).symm

/-- The rake after a pulse upward, with its upward count. -/
def upCounted (a : Screen) : Nat := if a.leg = .up then a.upCount + 1 else a.upCount

theorem takePulse_up (h : (s.screen n).up = true) : takePulse n s =
    (fun u => if (s.screen n).legLimit < upCounted (s.screen n) then travelLocked n (s.screen n).leg u else counted n (s.screen n) u)
      (s.onScreen n fun a => { a with position := (s.screen n).position - 1, upCount := upCounted (s.screen n) }) := by
  have hpulse : s.onScreen n Screen.pulseUp =
      s.onScreen n fun a => { a with position := (s.screen n).position - 1, upCount := upCounted (s.screen n) } :=
    onScreen_congr rfl
  unfold takePulse
  dsimp only
  rw [if_pos h, hpulse, lockTravel_eq (by rw [screen_onScreen]), afterPulse_eq (a := s.screen n) (by rw [screen_onScreen]) (by rw [screen_onScreen]), screen_onScreen]

theorem takePulse_down (hu : (s.screen n).up = false) (h : (s.screen n).down = true) : takePulse n s =
    (fun u => if s.running.travelLimit n < (s.screen n).position + 1 then travelLocked n (s.screen n).leg u
      else counted n (s.screen n) u)
      (s.onScreen n fun a => { a with
        position := min (s.running.travelLimit n) ((s.screen n).position + 1)
        upCount := if (s.screen n).leg = .up then (s.screen n).upCount - 1 else (s.screen n).upCount }) := by
  have hpulse : s.onScreen n (Screen.pulseDown (s.running.travelLimit n)) = s.onScreen n fun a => { a with
      position := min (s.running.travelLimit n) ((s.screen n).position + 1)
      upCount := if (s.screen n).leg = .up then (s.screen n).upCount - 1 else (s.screen n).upCount } :=
    onScreen_congr rfl
  unfold takePulse
  dsimp only
  rw [if_neg (Bool.eq_false_iff.mp hu), if_pos h, hpulse, lockTravel_eq (by rw [screen_onScreen]),
    afterPulse_eq (a := s.screen n) (by rw [screen_onScreen]) (by rw [screen_onScreen])]

theorem exec_pulse (h : (s.screen n).up = true ∨ (s.screen n).down = true) :
    exec (.pulse n) s = .next (conclude (takePulse n s)) :=
  exec_due (i := .pulse n) (s := s) rfl (Bool.or_eq_true_iff.mpr h)

end Pulse

/-! Dwells and the timers of a rake (R101, R102, R112) -/

section Timers

variable {n : Ix2} {s : State}

theorem gripExpires_eq : gripExpires n s = checkLimit n (s.onScreen n fun a => { a with
    dwell := none, leg := .up, upCount := 0, legLimit := s.running.travelLimit n
    rake := .ascending, up := true, down := false, jamTimer := some (100 * s.running.jamTime n) }) := by
  unfold gripExpires
  rw [beginLeg_eq, onScreen_onScreen]
  rfl

/-- A cycle done. -/
def cycleDone (n : Ix2) (s : State) : State := s.onScreen n fun a => { a with
  dwell := none, cycles := min 5 (a.cycles + 1), lastCycleEnd := s.clock.uptime.secs }

theorem cycleDone_screen : (cycleDone n s).screen n = { s.screen n with
    dwell := none, cycles := min 5 ((s.screen n).cycles + 1), lastCycleEnd := s.clock.uptime.secs } := screen_onScreen ..

theorem dischargeExpires_more {k : Nat} (h : (s.screen n).op = .finish (k + 1)) : dischargeExpires n s =
    checkLimit n ((cycleDone n s).onScreen n fun a => { a with
      op := .finish k, leg := .down, upCount := 0, legLimit := s.running.travelLimit n
      rake := .descending, up := false, down := true, jamTimer := some (100 * s.running.jamTime n) }) := by
  have ho : ((cycleDone n s).screen n).op = .finish (k + 1) := by rw [cycleDone_screen]; exact h
  have hrun : beginLeg n .descending .down ((cycleDone n s).onScreen n fun a => { a with op := .finish k }) =
      checkLimit n ((cycleDone n s).onScreen n fun a => { a with
        op := .finish k, leg := .down, upCount := 0, legLimit := s.running.travelLimit n
        rake := .descending, up := false, down := true, jamTimer := some (100 * s.running.jamTime n) }) := by
    rw [beginLeg_eq, onScreen_onScreen]
    rfl
  rw [← hrun]
  unfold dischargeExpires
  dsimp only
  split
  next he => cases (ho.symm.trans he)
  next j he =>
    cases (ho.symm.trans he)
    rfl
  next hn => exact absurd ho (hn k)

theorem dischargeExpires_last (h : (s.screen n).op = .finish 0) : dischargeExpires n s =
    enterHeld n (writeCompletion n 4 .complete (min 5 ((s.screen n).cycles + 1)) (cycleDone n s)) := by
  have ho : ((cycleDone n s).screen n).op = .finish 0 := by rw [cycleDone_screen]; exact h
  have hcycles : ((cycleDone n s).screen n).cycles = min 5 ((s.screen n).cycles + 1) := by rw [cycleDone_screen]
  rw [← hcycles]
  unfold dischargeExpires
  dsimp only
  split
  next => rfl
  next he => cases (ho.symm.trans he)
  next hz hn => exact absurd ho hz

theorem dischargeExpires_cycle (h : (s.screen n).op = .cycle) : dischargeExpires n s =
    enterIdle n (writeCompletion n 1 .complete 1 (cycleDone n s)) := by
  have ho : ((cycleDone n s).screen n).op = .cycle := by rw [cycleDone_screen]; exact h
  unfold dischargeExpires
  dsimp only
  split
  next he => cases (ho.symm.trans he)
  next he => cases (ho.symm.trans he)
  next => rfl

/-- A rake locked for a jam, with a position and the retries used. -/
def jamLocked (n : Ix2) (position : Nat) (t : State) : State :=
  lockRake n .jam (bytes2 position ++ [byte (t.screen n).retries]) t

/-- The direction of the motor in hand. -/
def Screen.motorDir (a : Screen) : Dir := if a.up then .up else .down

/-- The motor off, and the jam timer stopped. -/
def motorOff (n : Ix2) (s : State) : State :=
  s.onScreen n fun a => { a with up := false, down := false, jamTimer := none }

/-- The motor off with one more retry used. -/
def retried (n : Ix2) (s : State) : State := s.onScreen n fun a => { a with
  up := false, down := false, jamTimer := none, retries := (s.screen n).retries + 1 }

theorem motorOff_retried : ((motorOff n s).onScreen n fun a => { a with retries := a.retries + 1 }) = retried n s :=
  (onScreen_onScreen ..).trans (onScreen_congr rfl)

theorem motorOff_screen : (motorOff n s).screen n =
    { s.screen n with up := false, down := false, jamTimer := none } := screen_onScreen ..

theorem retried_screen : (retried n s).screen n = { s.screen n with
    up := false, down := false, jamTimer := none, retries := (s.screen n).retries + 1 } := screen_onScreen ..

theorem jamExpires_eq : jamExpires n s = if (s.screen n).rake = .reversing then lockJam n (motorOff n s)
    else if s.running.jamRetries n < ((retried n s).screen n).retries then lockJam n (retried n s)
    else enterReversing n ((retried n s).onScreen n fun a => { a with interrupted := (s.screen n).motorDir }) := by
  rw [← motorOff_retried]
  rfl

theorem lockJam_eq (t : State) : lockJam n t = jamLocked n (t.screen n).position t := rfl

theorem jamExpires_reversing (h : (s.screen n).rake = .reversing) :
    jamExpires n s = jamLocked n (s.screen n).position (motorOff n s) := by
  rw [jamExpires_eq, if_pos h, lockJam_eq, motorOff_screen]

theorem jamExpires_used (h : (s.screen n).rake ≠ .reversing) (hr : s.running.jamRetries n ≤ (s.screen n).retries) :
    jamExpires n s = jamLocked n (s.screen n).position (retried n s) := by
  rw [jamExpires_eq, if_neg h, if_pos (by rw [retried_screen]; exact Nat.lt_succ_of_le hr), lockJam_eq, retried_screen]

theorem jamExpires_retry (h : (s.screen n).rake ≠ .reversing) (hr : (s.screen n).retries < s.running.jamRetries n) :
    jamExpires n s = s.onScreen n fun a => { a with
      rake := .reversing, retries := (s.screen n).retries + 1, interrupted := (s.screen n).motorDir
      up := decide ((s.screen n).motorDir = .down), down := decide ((s.screen n).motorDir = .up)
      reverse := some (100 * s.running.reverseTime n), jamTimer := some (100 * s.running.jamTime n) } := by
  rw [jamExpires_eq, if_neg h,
    if_neg (by rw [retried_screen]; exact Nat.not_lt.mpr (Nat.succ_le_of_lt hr))]
  unfold enterReversing
  rw [screen_onScreen, energise_eq]
  unfold retried
  rw [onScreen_onScreen, onScreen_onScreen, onScreen_onScreen]
  refine onScreen_congr ?_
  dsimp only
  cases (s.screen n).motorDir <;> rfl

theorem endReverse_eq : endReverse n s = s.onScreen n fun a => { a with
    rake := interruptedStage (s.screen n).op (s.screen n).interrupted
    reverse := none, up := decide ((s.screen n).interrupted = .up), down := decide ((s.screen n).interrupted = .down)
    jamTimer := some (100 * s.running.jamTime n) } := by
  unfold endReverse
  dsimp only
  rw [energise_eq, onScreen_onScreen]
  rfl

end Timers

/-! Inputs (R96, R101, R105, R107, R112 to R114) -/

section Inputs

variable {n : Ix2} {s : State}

theorem takenHome_screen : (s.onScreen n fun a => { a with home := lineTaken a.home }).screen n =
    { s.screen n with home := lineTaken (s.screen n).home } := screen_onScreen ..

theorem takenBottom_screen : (s.onScreen n fun a => { a with bottom := lineTaken a.bottom }).screen n =
    { s.screen n with bottom := lineTaken (s.screen n).bottom } := screen_onScreen ..

theorem takenOverload_screen : (s.onScreen n fun a => { a with overload := lineTaken a.overload }).screen n =
    { s.screen n with overload := lineTaken (s.screen n).overload } := screen_onScreen ..

theorem exec_homeTaken (h : (s.screen n).home.timer = some 0) : exec (.rakeInputDebounceExpiry n .home) s =
    .next (conclude (if (s.screen n).home.line = false then s.onScreen n fun a => { a with home := lineTaken a.home }
      else homeMade n (s.onScreen n fun a => { a with home := lineTaken a.home }))) := by
  refine (exec_due (i := .rakeInputDebounceExpiry n .home) (s := s) rfl (timerDue_on h)).trans ?_
  refine congrArg (fun u => Outcome.next (conclude u)) ?_
  show (if ((s.onScreen n fun a => { a with home := lineTaken a.home }).screen n).home.state
    then homeMade n (s.onScreen n fun a => { a with home := lineTaken a.home })
    else s.onScreen n fun a => { a with home := lineTaken a.home }) = _
  rw [takenHome_screen]
  show (if (s.screen n).home.line then _ else _) = _
  cases (s.screen n).home.line <;> rfl

theorem exec_bottomTaken (h : (s.screen n).bottom.timer = some 0) : exec (.rakeInputDebounceExpiry n .bottom) s =
    .next (conclude (if (s.screen n).bottom.line = false
      then s.onScreen n fun a => { a with bottom := lineTaken a.bottom }
      else bottomMade n (s.onScreen n fun a => { a with bottom := lineTaken a.bottom }))) := by
  refine (exec_due (i := .rakeInputDebounceExpiry n .bottom) (s := s) rfl (timerDue_on h)).trans ?_
  refine congrArg (fun u => Outcome.next (conclude u)) ?_
  show (if ((s.onScreen n fun a => { a with bottom := lineTaken a.bottom }).screen n).bottom.state
    then bottomMade n (s.onScreen n fun a => { a with bottom := lineTaken a.bottom })
    else s.onScreen n fun a => { a with bottom := lineTaken a.bottom }) = _
  rw [takenBottom_screen]
  show (if (s.screen n).bottom.line then _ else _) = _
  cases (s.screen n).bottom.line <;> rfl

theorem exec_overloadTaken (h : (s.screen n).overload.timer = some 0) :
    exec (.rakeInputDebounceExpiry n .overload) s = .next (conclude (if (s.screen n).overload.line = false
      then releaseRake n (s.onScreen n fun a => { a with overload := lineTaken a.overload })
      else if (s.screen n).locks.overload then s.onScreen n fun a => { a with overload := lineTaken a.overload }
      else lockRake n .overload [byte (s.screen n).rake.code]
        (s.onScreen n fun a => { a with overload := lineTaken a.overload }))) := by
  refine (exec_due (i := .rakeInputDebounceExpiry n .overload) (s := s) rfl (timerDue_on h)).trans ?_
  refine congrArg (fun u => Outcome.next (conclude u)) ?_
  show rakeInputMoved n .overload (s.onScreen n fun a => { a with overload := lineTaken a.overload }) = _
  unfold rakeInputMoved
  dsimp only
  rw [takenOverload_screen]
  show (if (s.screen n).overload.line then _ else _) = _
  cases (s.screen n).overload.line <;> rfl

/-- A limit in a reverse, by the motor's direction. -/
theorem limitInReverse_home (t : State) : limitInReverse n true t =
    endReverse n (if (t.screen n).up then t.onScreen n fun a => { a with position := 0 } else t) := by
  unfold limitInReverse
  rw [Bool.true_and]

theorem limitInReverse_bottom (t : State) : limitInReverse n false t = endReverse n t := by
  unfold limitInReverse
  rfl

end Inputs

/-! Operations that end (R102, R105, R107) -/

theorem enterIdle_eq (n : Ix2) (s : State) : enterIdle n s = (s.onScreen n fun a => { a with
    rake := .idle, op := .none, saved := none, claim := none, grip := false, up := false, down := false
    jamTimer := none, dwell := none, reverse := none }).onScreen n fun a => { a with untested := true } := by
  rw [onScreen_onScreen]
  rfl

theorem testIdle_eq (n : Ix2) (s : State) : testIdle n s =
    if (s.screen n).rake = .idle ∧ ((s.screen n).pending = true ∨ (s.screen n).blocked = true) then
      begun n (s.onScreen n fun a => { a with untested := false }) .cycle
    else s.onScreen n fun a => { a with untested := false } :=
  ite_of_iff (by simp) rfl rfl

theorem enterHeld_eq (n : Ix2) (s : State) : enterHeld n s = raise ⟨.rakeHeld, n.num⟩ .advisory (bytes2 (s.screen n).position)
    (s.onScreen n fun a => { a with
      rake := .held, op := .none, saved := none, claim := none, grip := false, up := false, down := false
      jamTimer := none, dwell := none, reverse := none }) := by
  unfold enterHeld
  dsimp only
  rw [screen_onScreen]
  rfl

/-! The screens at a period end (R97, R103) -/

/-- The channel downstream of a screen. -/
def downstream : Ix2 → Ix6
  | .i1 => .i2
  | .i2 => .i3

theorem formDifferential_eq (n : Ix2) (s : State) : formDifferential n s = s.onScreen n fun a => { a with
    diffStale := decide ¬((s.level.channels.get .i1).period = .valid ∧
      (s.level.channels.get (downstream n)).period = .valid)
    differential := if (s.level.channels.get .i1).period = .valid ∧ (s.level.channels.get (downstream n)).period = .valid
      then (s.level.channels.get .i1).held.getD 0 - (s.level.channels.get (downstream n)).held.getD 0
      else (s.screen n).differential } := by
  by_cases hv : (s.level.channels.get .i1).period = .valid ∧ (s.level.channels.get (downstream n)).period = .valid
  · have hm : formDifferential n s = s.onScreen n fun a => { a with
        differential := (s.level.channels.get .i1).held.getD 0 - (s.level.channels.get (downstream n)).held.getD 0
        diffStale := false } := by
      cases n <;> exact if_pos (by rw [Bool.and_eq_true, decide_eq_true_eq, decide_eq_true_eq]; exact hv)
    rw [hm]
    exact onScreen_congr (by simp [hv])
  · have hm : formDifferential n s = s.onScreen n fun a => { a with diffStale := true } := by
      cases n <;> exact if_neg (by rw [Bool.and_eq_true, decide_eq_true_eq, decide_eq_true_eq]; exact hv)
    rw [hm]
    exact onScreen_congr (by simp only [if_neg hv, decide_eq_true hv])

theorem blockedAfter_stale {c : Settings} {n : Ix2} {a : Screen} (h : a.diffStale = true) :
    blockedAfter c n a = a.blocked := if_pos h

theorem blockedAfter_fresh {c : Settings} {n : Ix2} {a : Screen} (h : a.diffStale = false) : blockedAfter c n a =
    if c.blockedLevel n ≤ a.differential then true
    else if a.differential + 50 ≤ c.blockedLevel n then false else a.blocked :=
  if_neg (Bool.eq_false_iff.mp h)

/-- A rake's automatic triggers, as the rule lists them. -/
theorem triggered_iff (n : Ix2) (s : State) : triggered n s = true ↔
    ((s.screen n).diffStale = false ∧ s.running.triggerLevel n ≤ (s.screen n).differential) ∨
      (s.screen n).blocked = true ∨ ((s.screen n).rake = .idle ∧
        60 * s.running.interval n s.balance.cls ≤ secondsSince s.clock.uptime.secs (s.screen n).lastCycleEnd) := by
  unfold triggered
  simp only [Bool.or_eq_true, Bool.and_eq_true, Bool.not_eq_true', decide_eq_true_eq, or_assoc]

theorem testTriggers_eq (n : Ix2) (s : State) : testTriggers n s = if ¬triggered n s = true then s
    else if (s.screen n).rake = .idle then begun n s .cycle else s.onScreen n fun a => { a with pending := true } := by
  rw [ite_not]
  rfl

theorem causeEdge_eq (k : Kind) (m : Nat) (b c : Bool) (x : List Byte) :
    causeEdge k m b c x = if b = c then [] else [⟨k, m, if c then some x else none⟩] := rfl

/-- Settles O30, motion by motion. -/
theorem rakeMotion : Obligations.RakeMotion := by
  refine ⟨fun s n => ⟨fun hu hd => ?_, fun hu => ?_, fun hu hd => ?_⟩, fun s n => ?_, fun s n => ?_, fun s n => ?_,
    fun s n => ?_, fun s => ?_⟩
  · exact exec_notDue (i := .pulse n) (by show ((s.screen n).up || (s.screen n).down) = false; rw [hu, hd]; rfl)
  · rw [exec_pulse (.inl hu), takePulse_up hu]
    rfl
  · rw [exec_pulse (.inr hd), takePulse_down hu hd]
    rfl
  · refine ⟨fun hd hr => ?_, fun hd hr => ⟨fun k ho => ?_, fun ho => ?_, fun ho => ?_⟩, fun hj hr hn => ?_, fun hj hr => ?_,
      fun hj hr hn => ?_, fun hv hr => ?_, ?_⟩
    · rw [exec_due (i := .gripDwellExpiry n) (s := s) rfl (timerDue_and_on hd (decide_eq_true hr)), gripExpires_eq]
      rfl
    · rw [exec_due (i := .dischargeDwellExpiry n) (s := s) rfl (timerDue_and_on hd (decide_eq_true hr)),
        dischargeExpires_more ho]
      rfl
    · rw [exec_due (i := .dischargeDwellExpiry n) (s := s) rfl (timerDue_and_on hd (decide_eq_true hr)),
        dischargeExpires_last ho]
      rfl
    · rw [exec_due (i := .dischargeDwellExpiry n) (s := s) rfl (timerDue_and_on hd (decide_eq_true hr)),
        dischargeExpires_cycle ho]
      rfl
    · rw [exec_due (i := .jamTimerExpiry n) (s := s) rfl (timerDue_on hj), jamExpires_retry hr hn]
      rfl
    · rw [exec_due (i := .jamTimerExpiry n) (s := s) rfl (timerDue_on hj), jamExpires_reversing hr]
      rfl
    · rw [exec_due (i := .jamTimerExpiry n) (s := s) rfl (timerDue_on hj), jamExpires_used hr hn]
      rfl
    · exact exec_due (i := .reverseTimerExpiry n) (s := s) rfl (timerDue_and_on hv (decide_eq_true hr))
    · rw [endReverse_eq]
      unfold interruptedStage
      refine onScreen_congr ?_
      cases (s.screen n).op <;> cases (s.screen n).interrupted <;> rfl
  · refine ⟨fun h => ?_, fun h => ?_, fun h => exec_overloadTaken h⟩
    · rw [exec_homeTaken h]
      refine congrArg (fun u => Outcome.next (conclude u)) (congrArg (ite _ _) ?_)
      unfold homeMade
      rw [limitInReverse_home, takenHome_screen] <;> rfl
    · rw [exec_bottomTaken h]
      refine congrArg (fun u => Outcome.next (conclude u)) (congrArg (ite _ _) ?_)
      unfold bottomMade
      rw [limitInReverse_bottom, takenBottom_screen] <;> rfl
  · exact ⟨enterIdle_eq n s, testIdle_eq n s, enterHeld_eq n s, rfl, rfl⟩
  · refine ⟨?_, ⟨blockedAfter_stale, blockedAfter_fresh⟩, ?_⟩
    · cases n <;> exact formDifferential_eq _ s
    · rw [testTriggers_eq]
      refine ite_of_iff (not_congr (triggered_iff n s |>.trans ?_)) rfl rfl
      unfold Settings.interval
      rfl
  · refine ⟨rfl, rfl, ?_⟩
    unfold blockedEdges
    simp only [Ix2.all, List.map_cons, List.map_nil, List.flatten_cons, List.flatten_nil, List.append_nil, causeEdge_eq]

end Sys2Proof.Machine
end


section
/-!
SUPPORT. Places of the Condition Table, returns and the serving of the waiting list (O33).
-/

namespace Sys2Proof.Machine

open Host (Outcome)

/-! Where a record is seated (R126) -/

section Places

variable {t : Table}

theorem dormantOrder?_eq_some {sl : Slot} {o : Nat} : sl.dormantOrder? = some o ↔
    ∃ r, sl.record = some r ∧ r.state = .dormant ∧ r.changeOrder = o := by
  unfold Slot.dormantOrder?
  cases sl.record with
  | none => simp
  | some r => simp

theorem dormantOrder?_eq_none {sl : Slot} : sl.dormantOrder? = none ↔
    ∀ r, sl.record = some r → r.state ≠ .dormant := by
  unfold Slot.dormantOrder?
  cases sl.record with
  | none => simp
  | some r => simp

/-- A vacant general slot. -/
theorem vacant_iff (j : Nat) : (decide (j ≠ 0) && (t.slot j).record.isNone) = true ↔
    j ≠ 0 ∧ (t.slot j).record = none := by
  rw [Bool.and_eq_true, decide_eq_true_eq, Option.isNone_iff_eq_none]

theorem vacant?_eq_some {i : Nat} : t.vacant? = some i ↔
    1 ≤ i ∧ i ≤ 47 ∧ (t.slot i).record = none ∧ ∀ j, 1 ≤ j → j < i → (t.slot j).record ≠ none := by
  have hbelow : ∀ j, (!(decide (j ≠ 0) && (t.slot j).record.isNone)) = true ↔ (1 ≤ j → (t.slot j).record ≠ none) :=
    fun j => by rw [Bool.not_eq_true', ← Bool.not_eq_true, vacant_iff, Nat.one_le_iff_ne_zero, not_and]
  unfold Table.vacant?
  rw [List.find?_range_eq_some, vacant_iff, List.mem_range]
  constructor
  · rintro ⟨⟨h0, hi⟩, hlt, hlow⟩
    exact ⟨by omega, by omega, hi, fun j h1 hj => (hbelow j).mp (hlow j hj) h1⟩
  · rintro ⟨h1, h47, hi, hlow⟩
    exact ⟨⟨by omega, hi⟩, by omega, fun j hj => (hbelow j).mpr fun hj1 => hlow j hj1 hj⟩

theorem vacant?_eq_none : t.vacant? = none ↔ ∀ i, 1 ≤ i → i ≤ 47 → (t.slot i).record ≠ none := by
  unfold Table.vacant?
  rw [List.find?_eq_none]
  constructor
  · intro h i h1 h47 hi
    exact h i (List.mem_range.mpr (by omega)) ((vacant_iff i).mpr ⟨by omega, hi⟩)
  · intro h i hi hv
    obtain ⟨h0, hn⟩ := (vacant_iff i).mp hv
    exact h i (by omega) (by have := List.mem_range.mp hi; omega) hn

/-- What the oldest DORMANT record of some slots is: it is one of them, and none is older. -/
def OldestOf (t : Table) (l : List Nat) : Option Nat → Prop
  | none => ∀ j ∈ l, (t.slot j).dormantOrder? = none
  | some i => i ∈ l ∧ ∃ o, (t.slot i).dormantOrder? = some o ∧
      ∀ j ∈ l, ∀ q, (t.slot j).dormantOrder? = some q → o ≤ q

theorem olderDormant_skip {best : Option Nat} {a : Nat} (h : (t.slot a).dormantOrder? = none) :
    t.olderDormant best a = best := by
  unfold Table.olderDormant
  rw [h]

theorem olderDormant_first {a o : Nat} (h : (t.slot a).dormantOrder? = some o) :
    t.olderDormant none a = some a := by
  unfold Table.olderDormant
  rw [h]

theorem olderDormant_next {i p a o : Nat} (hi : (t.slot i).dormantOrder? = some p)
    (h : (t.slot a).dormantOrder? = some o) : t.olderDormant (some i) a = if o < p then some a else some i := by
  unfold Table.olderDormant
  rw [h]
  dsimp only
  rw [hi]
  rfl

theorem olderDormant_oldest {l : List Nat} {best : Option Nat} (h : OldestOf t l best) (a : Nat) :
    OldestOf t (l ++ [a]) (t.olderDormant best a) := by
  cases ha : (t.slot a).dormantOrder? with
  | none =>
    rw [olderDormant_skip ha]
    cases best with
    | none => exact List.forall_mem_append.mpr ⟨h, List.forall_mem_singleton.mpr ha⟩
    | some i =>
      obtain ⟨hi, p, hp, hmin⟩ := h
      exact ⟨List.mem_append_left _ hi, p, hp, List.forall_mem_append.mpr ⟨hmin, List.forall_mem_singleton.mpr
        fun q hq => by rw [ha] at hq; cases hq⟩⟩
  | some o =>
    have hlast : a ∈ l ++ [a] := List.mem_append_right _ (List.mem_singleton_self a)
    cases best with
    | none =>
      rw [olderDormant_first ha]
      exact ⟨hlast, o, ha, List.forall_mem_append.mpr ⟨fun j hj q hq => (by rw [h j hj] at hq; cases hq),
        List.forall_mem_singleton.mpr fun q hq => Nat.le_of_eq (Option.some.inj (ha.symm.trans hq))⟩⟩
    | some i =>
      obtain ⟨hi, p, hp, hmin⟩ := h
      rw [olderDormant_next hp ha]
      split
      next hlt =>
        exact ⟨hlast, o, ha, List.forall_mem_append.mpr ⟨fun j hj q hq => Nat.le_trans (Nat.le_of_lt hlt) (hmin j hj q hq),
          List.forall_mem_singleton.mpr fun q hq => Nat.le_of_eq (Option.some.inj (ha.symm.trans hq))⟩⟩
      next hge =>
        exact ⟨List.mem_append_left _ hi, p, hp, List.forall_mem_append.mpr ⟨hmin,
          List.forall_mem_singleton.mpr fun q hq => Nat.le_trans (Nat.not_lt.mp hge) (Nat.le_of_eq (Option.some.inj (ha.symm.trans hq)))⟩⟩

theorem foldl_olderDormant {l : List Nat} {best : Option Nat} (h : OldestOf t l best) (m : List Nat) :
    OldestOf t (l ++ m) (m.foldl t.olderDormant best) := by
  induction m generalizing l best with
  | nil => rwa [List.append_nil]
  | cons a m ih =>
    rw [List.append_cons]
    exact ih (olderDormant_oldest h a)

theorem foldl_oldest (l : List Nat) : OldestOf t l (l.foldl t.olderDormant none) :=
  have hnone : OldestOf t [] none := fun _ h => absurd h List.not_mem_nil
  foldl_olderDormant hnone l

theorem oldestDormant?_oldest : OldestOf t ((List.range 48).filter (· ≠ 0)) t.oldestDormant? := foldl_oldest _

theorem mem_general {i : Nat} : i ∈ (List.range 48).filter (· ≠ 0) ↔ 1 ≤ i ∧ i ≤ 47 := by
  rw [List.mem_filter, List.mem_range, decide_eq_true_eq]
  omega

/-- A place for a record: a vacant slot below which none is, or else the DORMANT record that no other is older than. -/
theorem place?_some {i : Nat} (h : t.place? = some i) : 1 ≤ i ∧ i ≤ 47 ∧
    (((t.slot i).record = none ∧ ∀ j, 1 ≤ j → j < i → (t.slot j).record ≠ none) ∨
      ((∀ j, 1 ≤ j → j ≤ 47 → (t.slot j).record ≠ none) ∧
        ∃ r, (t.slot i).record = some r ∧ r.state = .dormant ∧ ∀ j, 1 ≤ j → j ≤ 47 →
          ∀ q, (t.slot j).record = some q → q.state = .dormant → r.changeOrder ≤ q.changeOrder)) := by
  unfold Table.place? at h
  split at h
  next j hj =>
    obtain rfl := Option.some.inj h
    obtain ⟨h1, h47, hi, hlow⟩ := vacant?_eq_some.mp hj
    exact ⟨h1, h47, .inl ⟨hi, hlow⟩⟩
  next hv =>
    have hold := oldestDormant?_oldest (t := t)
    rw [h] at hold
    obtain ⟨hi, o, ho, hmin⟩ := hold
    obtain ⟨h1, h47⟩ := mem_general.mp hi
    obtain ⟨r, hr, hd, rfl⟩ := dormantOrder?_eq_some.mp ho
    exact ⟨h1, h47, .inr ⟨vacant?_eq_none.mp hv, r, hr, hd, fun j hj1 hj47 q hq hqd =>
      hmin j (mem_general.mpr ⟨hj1, hj47⟩) _ (dormantOrder?_eq_some.mpr ⟨q, hq, hqd, rfl⟩)⟩⟩

theorem place?_eq_none : t.place? = none ↔
    ∀ i, 1 ≤ i → i ≤ 47 → ∃ r, (t.slot i).record = some r ∧ r.state ≠ .dormant := by
  constructor
  · intro h i h1 h47
    obtain ⟨hfull, hawake⟩ := place?_none h
    obtain ⟨r, hr⟩ := Option.ne_none_iff_exists'.mp (hfull i h1 h47)
    exact ⟨r, hr, dormantOrder?_eq_none.mp (hawake i h1 h47) r hr⟩
  · intro h
    cases hp : t.place? with
    | none => rfl
    | some i =>
      obtain ⟨h1, h47, ⟨hi, -⟩ | ⟨-, q, hq, hd, -⟩⟩ := place?_some hp
      · obtain ⟨r, hr, -⟩ := h i h1 h47
        cases hi.symm.trans hr
      · obtain ⟨r, hr, hn⟩ := h i h1 h47
        exact absurd hd (Option.some.inj (hr.symm.trans hq) ▸ hn)

theorem place?_of_vacant {i : Nat} (h1 : 1 ≤ i) (h47 : i ≤ 47) (hi : (t.slot i).record = none)
    (hlow : ∀ j, 1 ≤ j → j < i → (t.slot j).record ≠ none) : t.place? = some i := by
  unfold Table.place?
  rw [vacant?_eq_some.mpr ⟨h1, h47, hi, hlow⟩]

/-- The DORMANT record older than every other is displaced, where no slot is vacant. -/
theorem place?_of_oldest {i : Nat} {r : Record} (h1 : 1 ≤ i) (h47 : i ≤ 47)
    (hfull : ∀ j, 1 ≤ j → j ≤ 47 → (t.slot j).record ≠ none) (hr : (t.slot i).record = some r) (hd : r.state = .dormant)
    (hmin : ∀ j, 1 ≤ j → j ≤ 47 → j ≠ i → ∀ q, (t.slot j).record = some q → q.state = .dormant →
      r.changeOrder < q.changeOrder) : t.place? = some i := by
  cases hp : t.place? with
  | none =>
    obtain ⟨q, hq, hn⟩ := place?_eq_none.mp hp i h1 h47
    exact absurd hd (Option.some.inj (hq.symm.trans hr) ▸ hn)
  | some j =>
    obtain ⟨j1, j47, ⟨hj, -⟩ | ⟨-, q, hq, hqd, hold⟩⟩ := place?_some hp
    · exact absurd hj (hfull j j1 j47)
    · by_cases hji : j = i
      · rw [hji]
      · exact absurd (hold i h1 h47 r hr hd) (Nat.not_le.mpr (hmin j j1 j47 hji q hq hqd))

end Places

/-! Serving the waiting list (R134) -/

section Serve

variable {s : State}

theorem serveWaiting_noPlace (h : s.table.place? = none) (n : Nat) : serveWaiting n s = s := by
  cases n with
  | zero => rfl
  | succ n =>
    unfold serveWaiting
    split
    next hp => cases h.symm.trans hp
    next => rfl

theorem serve_idle (h : s.table.waiting = [] ∨ s.table.place? = none) : serve s = s :=
  h.elim serve_nil fun h => serveWaiting_noPlace h _

theorem serve_head {w : Waiting} {rest : List Waiting} {i : Nat} (h : s.table.waiting = w :: rest)
    (hp : s.table.place? = some i) :
    serve s = serve (seat i w.key w.severity w.extra w.time (setWaiting rest s)) := by
  have hwaiting : (seat i w.key w.severity w.extra w.time (setWaiting rest s)).table.waiting = rest :=
    (seat_lists ..).1.trans (setWaiting_waiting ..)
  have hstep : serve s = serveWaiting rest.length (seat i w.key w.severity w.extra w.time (setWaiting rest s)) := by
    unfold serve
    rw [h, List.length_cons, serveWaiting, h, hp]
  rw [hstep, serve, hwaiting]

end Serve

theorem seat_flag (i : Nat) (k : Key) (v : Severity) (x : List Byte) (first : Stamp) (s : State) :
    (seat i k v x first s).port.flags.condition = true :=
  (enteredRaised_frame ..).flags .condition rfl

theorem seat_table (i : Nat) (k : Key) (v : Severity) (x : List Byte) (first : Stamp) (s : State) :
    let t := seat i k v x first s
    t.table = { s.table with slots := t.table.slots, changeOrder := nextOrder s.table.changeOrder } := by
  unfold seat
  dsimp only
  rw [enteredRaised_table]
  rfl

/-! Returns (R123, R125, R133) -/

section Returns

variable {s : State} {k : Key}

theorem returnKey_raised {i : Nat} {r : Record} (h : s.table.seatedAt? k = some i)
    (hr : (s.table.slot i).record = some r) (hs : r.state = .raised) :
    returnKey k s = changeRecord i (fun r => { r with state := .returned }) s := by
  have hm : (s.table.slot i).record.map Record.state = some .raised := by rw [hr, ← hs]; rfl
  unfold returnKey
  rw [h]
  dsimp only
  rw [hm]

theorem returnKey_acked {i : Nat} {r : Record} (h : s.table.seatedAt? k = some i)
    (hr : (s.table.slot i).record = some r) (hs : r.state = .acked) :
    returnKey k s = if i = 0 then changeRecord i (fun r => { r with state := .dormant }) s
      else serve (changeRecord i (fun r => { r with state := .dormant }) s) := by
  have hm : (s.table.slot i).record.map Record.state = some .acked := by rw [hr, ← hs]; rfl
  unfold returnKey
  rw [h]
  dsimp only
  rw [hm]

theorem returnKey_gone {i : Nat} {r : Record} (h : s.table.seatedAt? k = some i)
    (hr : (s.table.slot i).record = some r) (hs : r.state = .returned ∨ r.state = .dormant) : returnKey k s = s := by
  have hm : (s.table.slot i).record.map Record.state = some r.state := by rw [hr]; rfl
  unfold returnKey
  rw [h]
  dsimp only
  rw [hm]
  obtain hs | hs := hs <;> rw [hs]

theorem returnKey_unseated (h : s.table.seatedAt? k = none) :
    returnKey k s = setWaiting (s.table.waiting.filter fun w => w.key ≠ k) s := by
  unfold returnKey
  rw [h]

/-- What a change of a record leaves, said for one slot and the rest. -/
theorem changeRecord_parts {i : Nat} {r : Record} (hr : (s.table.slot i).record = some r) (f : Record → Record) :
    let u := changeRecord i f s
    u.table.slot i = { s.table.slot i with record := some { f r with
      lastChange := s.clock.station, changeOrder := nextOrder s.table.changeOrder, townCurrent := false } } ∧
    (∀ j, j ≠ i → u.table.slot j = s.table.slot j) ∧ u.port.flags.condition = true ∧
    u = { s with table := u.table, port := u.port } ∧
    u.table = { s.table with slots := u.table.slots, changeOrder := nextOrder s.table.changeOrder } :=
  ⟨changeRecord_slot hr f, fun _ hj => changeRecord_slot_ne hj f s, changeRecord_flag hr f,
    by rw [changeRecord_eq hr]; rfl, by rw [changeRecord_eq hr]; rfl⟩

end Returns

/-- Some general slot is vacant or holds a DORMANT record. -/
theorem isSaturated_false {t : Table} : t.isSaturated = false ↔ ∃ i, i < 48 ∧ i ≠ 0 ∧
    ((t.slot i).record = none ∨ ∃ r, (t.slot i).record = some r ∧ r.state = .dormant) := by
  unfold Table.isSaturated
  rw [← Bool.not_eq_true, Option.isNone_iff_eq_none, place?_eq_none]
  constructor
  · intro h
    obtain ⟨i, hi⟩ := Classical.not_forall.mp h
    obtain ⟨h1, hi⟩ := Classical.not_forall.mp hi
    obtain ⟨h47, hi⟩ := Classical.not_forall.mp hi
    refine ⟨i, by omega, by omega, ?_⟩
    cases hr : (t.slot i).record with
    | none => exact .inl rfl
    | some r => exact .inr ⟨r, rfl, Classical.not_not.mp fun hn => hi ⟨r, hr, hn⟩⟩
  · rintro ⟨i, h48, h0, hi⟩ h
    obtain ⟨r, hr, hn⟩ := h i (by omega) (by omega)
    obtain hi | ⟨q, hq, hd⟩ := hi
    · cases hr.symm.trans hi
    · exact hn (Option.some.inj (hr.symm.trans hq) ▸ hd)

theorem saturationEnds_iff (s : State) : (s.table.saturated && !s.table.isSaturated) = true ↔
    s.table.saturated = true ∧ ∃ i, i < 48 ∧ i ≠ 0 ∧
      ((s.table.slot i).record = none ∨ ∃ r, (s.table.slot i).record = some r ∧ r.state = .dormant) := by
  rw [Bool.and_eq_true, Bool.not_eq_true', isSaturated_false]

/-- Settles O33. -/
theorem returnMovesRecord : Obligations.ReturnMovesRecord := by
  refine ⟨fun s k => ⟨fun i hi r hr => ⟨fun hs => ?_, returnKey_gone hi hr⟩, fun h => ?_⟩,
    fun s => ⟨serve_idle, fun w rest h i hp => serve_head h hp, fun i => place?_some, place?_eq_none⟩,
    fun s k v x first i hi => ⟨seat_slot hi k v x first, fun j hj => seat_slot_ne hj k v x first s, seat_table i k v x first s,
      seat_flag i k v x first s⟩, fun s => ⟨fun h => ?_, fun h => ?_⟩⟩
  · obtain hs | hs := hs
    · refine ⟨changeRecord i (fun r => { r with state := .returned }) s, ?_, ?_⟩
      · rw [returnKey_raised hi hr hs, if_neg (by rw [hs]; simp)]
      · rw [if_pos hs]
        exact changeRecord_parts hr _
    · refine ⟨changeRecord i (fun r => { r with state := .dormant }) s, ?_, ?_⟩
      · rw [returnKey_acked hi hr hs]
        by_cases h0 : i = 0
        · rw [if_pos h0, if_neg (by simp [h0])]
        · rw [if_neg h0, if_pos ⟨hs, h0⟩]
      · rw [if_neg (by rw [hs]; nofun)]
        exact changeRecord_parts hr _
  · rw [returnKey_unseated h]
    exact ⟨setWaiting_slots .., setWaiting_waiting ..⟩
  · exact if_pos ((saturationEnds_iff s).mpr h)
  · exact if_neg fun e => h ((saturationEnds_iff s).mp e)

end Sys2Proof.Machine
end


section
/-!
SUPPORT. Raises on the Condition Table, and the order of changes that no rule orders (O32).
-/

namespace Sys2Proof.Machine

open Host (Outcome)

/-! A record that enters RAISED (R147, R187) -/

section Entered

variable (r : Record) (s : State)

theorem wakeLink_ann (b : Bool) : (wakeLink b s).ann = s.ann := by
  unfold wakeLink
  split <;> rfl

theorem wakeLink_link {s u : State} (h : u.link = s.link) (b : Bool) : (wakeLink b u).link = (wakeLink b s).link := by
  unfold wakeLink
  rw [h]
  split
  · exact congrArg (fun l : Link => { l with
      state := .online, heartbeatTimer := seconds (3 * l.period.getD 0), statusOwed := true
      statusTimer := seconds (l.period.getD 0), wakesOwed := if b then l.wakesOwed + 1 else l.wakesOwed }) h
  · exact h

/-- The silence state as a record that enters RAISED leaves it. -/
theorem enteredRaised_ann : (enteredRaised r s).ann = { s.ann with
    silence := s.ann.silence && (r.shelved || decide (r.severity.code < s.running.hornThreshold)) } := by
  have hsounds : (if r.sounds s.running then s.onAnn fun a => { a with silence := false } else s).ann = { s.ann with
      silence := s.ann.silence && (r.shelved || decide (r.severity.code < s.running.hornThreshold)) } := by
    by_cases h : r.sounds s.running = true
    · obtain ⟨hsh, hcode⟩ : r.shelved = false ∧ s.running.hornThreshold ≤ r.severity.code := by
        simpa [Record.sounds] using h
      rw [if_pos h, hsh, decide_eq_false (Nat.not_lt.mpr hcode), Bool.or_false, Bool.and_false]
      rfl
    · have hquiet : (r.shelved || decide (r.severity.code < s.running.hornThreshold)) = true := by
        simp only [Record.sounds, Bool.and_eq_true, Bool.not_eq_true', decide_eq_true_eq, Classical.not_and_iff_not_or_not] at h
        rw [Bool.or_eq_true, decide_eq_true_eq]
        exact h.imp (fun h => by simpa using h) Nat.not_le.mp
      rw [if_neg h, hquiet, Bool.and_true]
  unfold enteredRaised
  dsimp only
  split
  · rw [wakeLink_ann]
    exact hsounds
  · exact hsounds

theorem severity_major (v : Severity) : v.atLeast .major = decide (2 ≤ v.code) := rfl

theorem enteredRaised_link : (enteredRaised r s).link =
    if 2 ≤ r.severity.code then (wakeLink true s).link else s.link := by
  have hlink : (if r.sounds s.running then s.onAnn fun a => { a with silence := false } else s).link = s.link := by
    split <;> rfl
  unfold enteredRaised
  dsimp only
  rw [severity_major]
  by_cases h : 2 ≤ r.severity.code
  · rw [if_pos (decide_eq_true h), if_pos h]
    exact wakeLink_link hlink true
  · rw [if_neg (by simpa using h), if_neg h]
    exact hlink

end Entered

/-! A raise on a seated record (R124) -/

section Seated

variable {s : State} {i : Nat} {r : Record} (v : Severity) (x : List Byte)

/-- A record as a raise leaves it, but for the change itself. -/
def Record.raisedAgain (v : Severity) (x : List Byte) (r : Record) : Record := { r with
  state := r.state.raise, severity := v, extra := x, raiseCount := saturate 255 (r.raiseCount + 1)
  ackBy := if r.state = .returned || r.state = .dormant then .nobody else r.ackBy }

theorem raiseSeated_active (h : (s.table.slot i).record = some r) (ha : ¬(r.state = .returned ∨ r.state = .dormant)) :
    raiseSeated i v x s = changeRecord i (fun _ => r.raisedAgain v x) s := by
  unfold raiseSeated
  rw [h]
  exact if_neg (by simpa using ha)

theorem raiseSeated_again (h : (s.table.slot i).record = some r) (ha : r.state = .returned ∨ r.state = .dormant) :
    raiseSeated i v x s = enteredRaised (r.raisedAgain v x) (changeRecord i (fun _ => r.raisedAgain v x) s) := by
  unfold raiseSeated
  rw [h]
  exact if_pos (by simpa using ha)

theorem raiseSeated_table (h : (s.table.slot i).record = some r) :
    (raiseSeated i v x s).table = (changeRecord i (fun _ => r.raisedAgain v x) s).table := by
  by_cases ha : r.state = .returned ∨ r.state = .dormant
  · rw [raiseSeated_again v x h ha, enteredRaised_table]
  · rw [raiseSeated_active v x h ha]

theorem raiseSeated_flag (h : (s.table.slot i).record = some r) :
    (raiseSeated i v x s).port.flags.condition = true := by
  by_cases ha : r.state = .returned ∨ r.state = .dormant
  · rw [raiseSeated_again v x h ha]
    exact (enteredRaised_frame ..).flags .condition (changeRecord_flag h _)
  · rw [raiseSeated_active v x h ha]
    exact changeRecord_flag h _

theorem recState_raise (a : RecState) : a.raise = if a = .returned ∨ a = .dormant then .raised else a := by
  cases a <;> rfl

theorem raisedAgain_eq (r : Record) : r.raisedAgain v x = { r with
    state := if r.state = .returned ∨ r.state = .dormant then .raised else r.state
    severity := v, extra := x, raiseCount := min 255 (r.raiseCount + 1)
    ackBy := if r.state = .returned ∨ r.state = .dormant then .nobody else r.ackBy } := by
  unfold Record.raisedAgain
  rw [recState_raise]
  congr 1
  exact ite_of_iff (by simp) rfl rfl

theorem changeRecord_ann (i : Nat) (f : Record → Record) (s : State) : (changeRecord i f s).ann = s.ann := by
  unfold changeRecord
  split <;> rfl

theorem changeRecord_link (i : Nat) (f : Record → Record) (s : State) : (changeRecord i f s).link = s.link := by
  unfold changeRecord
  split <;> rfl

theorem changeRecord_running (i : Nat) (f : Record → Record) (s : State) : (changeRecord i f s).running = s.running := by
  unfold changeRecord
  split <;> rfl

end Seated

/-- Clause by clause: a raise on a seated record. -/
theorem raise_seated_stands {s : State} {k : Key} {v : Severity} {x : List Byte} {i : Nat} {r : Record}
    (hk : s.table.seatedAt? k = some i) (hr : (s.table.slot i).record = some r) :
    let t := raise k v x s
    let again := r.state = .returned ∨ r.state = .dormant
    t.table.slot i = { s.table.slot i with
      record := some { r with
        state := if again then .raised else r.state
        severity := v, extra := x, raiseCount := min 255 (r.raiseCount + 1)
        ackBy := if again then .nobody else r.ackBy
        lastChange := s.clock.station, changeOrder := nextOrder s.table.changeOrder, townCurrent := false } } ∧
    (∀ j, j ≠ i → t.table.slot j = s.table.slot j) ∧
    t.table.waiting = s.table.waiting ∧ t.table.changeOrder = nextOrder s.table.changeOrder ∧
    t.table.raisedSinceClear = min 4294967295 (s.table.raisedSinceClear + 1) ∧ t.port.flags.condition = true ∧
    (¬again → t.ann = s.ann ∧ t.link = s.link) ∧
    (again → t.ann = { s.ann with
        silence := s.ann.silence && (r.shelved || decide (v.code < s.running.hornThreshold)) } ∧
      t.link = if 2 ≤ v.code then (wakeLink true s).link else s.link) := by
  intro t again
  have ht : t = raiseSeated i v x (countRaise s) := raise_seated hk v x
  have hr' : ((countRaise s).table.slot i).record = some r := hr
  have htable : t.table = (changeRecord i (fun _ => r.raisedAgain v x) (countRaise s)).table :=
    ht ▸ raiseSeated_table v x hr'
  clear_value t
  refine ⟨?_, fun j hj => ?_, ?_, ?_, ?_, ht ▸ raiseSeated_flag v x hr', fun ha => ?_, fun ha => ?_⟩
  · rw [htable, changeRecord_slot hr', raisedAgain_eq]
    rfl
  · rw [htable, changeRecord_slot_ne hj]
    rfl
  · rw [htable, changeRecord_waiting]
    rfl
  · rw [htable, changeRecord_order hr']
    rfl
  · rw [htable, (changeRecord_counts ..).1]
    rfl
  · rw [ht, raiseSeated_active v x hr' ha, changeRecord_ann, changeRecord_link]
    exact ⟨rfl, rfl⟩
  · rw [ht, raiseSeated_again v x hr' ha, enteredRaised_ann, enteredRaised_link, changeRecord_ann, changeRecord_link,
      changeRecord_running, wakeLink_link (changeRecord_link ..) true, wakeLink_link (s := s) (u := countRaise s) rfl true]
    exact ⟨rfl, rfl⟩

/-! A raise with a place (R121, R126) -/

theorem seat_ann (i : Nat) (k : Key) (v : Severity) (x : List Byte) (first : Stamp) (s : State) :
    (seat i k v x first s).ann =
      { s.ann with silence := s.ann.silence && decide (v.code < s.running.hornThreshold) } := by
  unfold seat
  dsimp only
  rw [enteredRaised_ann]
  rfl

theorem seat_link (i : Nat) (k : Key) (v : Severity) (x : List Byte) (first : Stamp) (s : State) :
    (seat i k v x first s).link = if 2 ≤ v.code then (wakeLink true s).link else s.link := by
  unfold seat
  dsimp only
  rw [enteredRaised_link]
  exact ite_of_iff Iff.rfl (wakeLink_link (by rfl) true) rfl

/-- Clause by clause: a raise that takes a place. -/
theorem raise_placed_stands {s : State} {k : Key} {v : Severity} {x : List Byte} {i : Nat} (hs : TableOk s.table)
    (hk : s.table.seatedAt? k = none) (hw : s.table.waitsAt? k = none) (hi : i ≤ 47) (hp : s.table.place? = some i) :
    let t := raise k v x s
    let g := (s.table.slot i).gen
    t.table.slot i = ⟨if g < 255 then g + 1 else 1,
      some ⟨k, v, .raised, false, none, .nobody, 1, s.clock.station, s.clock.station,
        nextOrder s.table.changeOrder, x, false⟩, none⟩ ∧
    (∀ j, j ≠ i → t.table.slot j = s.table.slot j) ∧ t.table.waiting = s.table.waiting ∧
    t.table.raisedSinceClear = min 4294967295 (s.table.raisedSinceClear + 1) ∧ t.port.flags.condition = true ∧
    t.ann = { s.ann with silence := s.ann.silence && decide (v.code < s.running.hornThreshold) } ∧
    t.link = (if 2 ≤ v.code then (wakeLink true s).link else s.link) := by
  have hlen : i < (countRaise s).table.slots.length := by
    show i < s.table.slots.length
    rw [hs.1]
    omega
  have hlists := seat_lists i k v x s.clock.station (countRaise s)
  dsimp only
  rw [raise_placed hk hw hp v x]
  refine ⟨seat_slot hlen .., fun j hj => seat_slot_ne hj .., hlists.1, hlists.2.1, seat_flag .., seat_ann .., ?_⟩
  rw [seat_link, wakeLink_link (s := s) (u := countRaise s) rfl true]
  rfl

/-! A raise with no place (R127, R132, R133) -/

theorem placeWaiting_behind (w : Waiting) (l : List Waiting) : ∃ a b, l = a ++ b ∧ placeWaiting w l = a ++ w :: b ∧
    (∀ e ∈ a, w.severity.code ≤ e.severity.code) ∧ ∀ e, b.head? = some e → e.severity.code < w.severity.code := by
  refine ⟨l.takeWhile fun e => e.severity.atLeast w.severity, l.dropWhile fun e => e.severity.atLeast w.severity,
    List.takeWhile_append_dropWhile.symm, rfl, fun e he => ?_, fun e he => ?_⟩
  · exact of_decide_eq_true (of_mem_takeWhile (p := fun e : Waiting => e.severity.atLeast w.severity) he)
  · have hnot := List.head?_dropWhile_not (fun e : Waiting => e.severity.atLeast w.severity) l
    rw [he] at hnot
    simpa [Severity.atLeast] using hnot

theorem enlist_room {w : Waiting} {l : List Waiting} (h : l.length < 16) : enlist w l = placeWaiting w l := if_pos h

theorem enlist_full {w e : Waiting} {l : List Waiting} (h : 16 ≤ (l ++ [e]).length) : enlist w (l ++ [e]) =
    if e.severity.code < w.severity.code then placeWaiting w l else l ++ [e] := by
  unfold enlist
  rw [if_neg (Nat.not_lt.mpr h), List.getLast?_concat, List.dropLast_concat]

section Suppression

variable (v : Severity) (s : State)

/-- A suppression counted, before its change of slot 0. -/
def suppressed (v : Severity) (s : State) : State :=
  s.onTable fun t => { t with suppressed := s.table.suppressed.add v, saturated := true }

theorem countSuppression_first {s : State} (h : s.table.saturated = false) :
    countSuppression v s = raiseSaturated (suppressed v s) := if_neg (Bool.eq_false_iff.mp h)

theorem countSuppression_same {s : State} (h : s.table.saturated = true)
    (hc : s.table.suppressed.add v = s.table.suppressed) : countSuppression v s = suppressed v s :=
  (if_pos h).trans (if_pos hc)

theorem countSuppression_more {s : State} (h : s.table.saturated = true)
    (hc : s.table.suppressed.add v ≠ s.table.suppressed) : countSuppression v s =
      changeRecord 0 (fun r => { r with extra := (s.table.suppressed.add v).image }) (suppressed v s) :=
  (if_pos h).trans (if_neg hc)

theorem recState_raise_active (a : RecState) : a.raise = .raised ∨ a.raise = .acked := by
  cases a <;> decide

theorem raiseSaturated_slot (s : State) (h : s.table.slots.length = 48) :
    ∃ r, ((raiseSaturated s).table.slot 0).record = some r ∧ r.severity = .major ∧
      r.extra = s.table.suppressed.image ∧ (r.state = .raised ∨ r.state = .acked) := by
  unfold raiseSaturated
  cases hr : (s.table.slot 0).record with
  | none =>
    rw [if_neg (by simp), seat_slot (by omega)]
    exact ⟨_, rfl, rfl, rfl, .inl rfl⟩
  | some r =>
    rw [if_pos (by simp), raiseSeated_table _ _ hr, changeRecord_slot hr]
    exact ⟨_, rfl, rfl, rfl, recState_raise_active r.state⟩

theorem suppressions_add (c : Suppressions) :
    (c.add v).advisory = (if v = .advisory then min 65535 (c.advisory + 1) else c.advisory) ∧
    (c.add v).minor = (if v = .minor then min 65535 (c.minor + 1) else c.minor) ∧
    (c.add v).major = (if v = .major then min 65535 (c.major + 1) else c.major) ∧
    (c.add v).critical = (if v = .critical then min 65535 (c.critical + 1) else c.critical) := by
  cases v <;> exact ⟨rfl, rfl, rfl, rfl⟩

end Suppression

/-- The state in which a raise with no place is counted as a suppression, its waiting list formed. -/
def heldRaise (k : Key) (v : Severity) (x : List Byte) (s : State) : State :=
  setWaiting (if s.table.waitsAt? k = none then enlist ⟨k, v, x, s.clock.station⟩ s.table.waiting
    else s.table.waiting.map fun w => if w.key = k then { w with extra := x } else w) (countRaise s)

theorem raise_held {s : State} {k : Key} (hk : s.table.seatedAt? k = none)
    (hp : s.table.waitsAt? k = none → s.table.place? = none) (v : Severity) (x : List Byte) :
    raise k v x s = countSuppression v (heldRaise k v x s) := by
  unfold heldRaise
  cases hw : s.table.waitsAt? k with
  | none => rw [if_pos rfl, raise_nowhere hk hw (hp hw)]
  | some i => rw [if_neg nofun, raise_waiting hk hw]

theorem setWaiting_table (l : List Waiting) (s : State) : (setWaiting l s).table = { s.table with waiting := l } := by
  unfold setWaiting
  split
  next h => rw [h]
  next => rfl

theorem heldRaise_table (k : Key) (v : Severity) (x : List Byte) (s : State) : (heldRaise k v x s).table =
    { s.table with
      raisedSinceClear := min 4294967295 (s.table.raisedSinceClear + 1)
      waiting := if s.table.waitsAt? k = none then enlist ⟨k, v, x, s.clock.station⟩ s.table.waiting
        else s.table.waiting.map fun w => if w.key = k then { w with extra := x } else w } := by
  unfold heldRaise
  rw [setWaiting_table]
  rfl

theorem heldRaise_clock (k : Key) (v : Severity) (x : List Byte) (s : State) : (heldRaise k v x s).clock = s.clock := by
  unfold heldRaise
  generalize (if s.table.waitsAt? k = none then _ else _) = l
  unfold setWaiting
  split <;> rfl

/-- Clause by clause: a raise that is held, and counted as a suppression. -/
theorem raise_held_stands {s : State} {k : Key} (v : Severity) (x : List Byte) (hk : s.table.seatedAt? k = none)
    (hp : s.table.waitsAt? k = none → s.table.place? = none) :
    let t := raise k v x s
    let counts := s.table.suppressed.add v
    t.table.waiting = (if s.table.waitsAt? k = none then enlist ⟨k, v, x, s.clock.station⟩ s.table.waiting
      else s.table.waiting.map fun w => if w.key = k then { w with extra := x } else w) ∧
    t.table.saturated = true ∧ t.table.suppressed = counts ∧
    (s.table.saturated = false → TableOk s.table → ∃ r, (t.table.slot 0).record = some r ∧ r.severity = .major ∧
      r.extra = counts.image ∧ (r.state = .raised ∨ r.state = .acked)) ∧
    (s.table.saturated = true → ∀ r, (s.table.slot 0).record = some r →
      (counts = s.table.suppressed → t.table.slot 0 = s.table.slot 0) ∧
      (counts ≠ s.table.suppressed → t.table.slot 0 = { s.table.slot 0 with record := some { r with
        extra := counts.image, lastChange := s.clock.station, changeOrder := nextOrder s.table.changeOrder
        townCurrent := false } })) ∧
    (∀ j, 1 ≤ j → t.table.slot j = s.table.slot j) ∧
    t.table.raisedSinceClear = min 4294967295 (s.table.raisedSinceClear + 1) := by
  have htable := heldRaise_table k v x s
  have hclock := heldRaise_clock k v x s
  intro t
  have ht : t = countSuppression v (heldRaise k v x s) := raise_held hk hp v x
  clear_value t
  subst ht
  generalize heldRaise k v x s = u at htable hclock ⊢
  obtain ⟨hwaiting, hsat, hsup, hslots, hraised⟩ := countSuppression_table v u
  have hsupu : u.table.suppressed = s.table.suppressed := by rw [htable]
  have hsatu : u.table.saturated = s.table.saturated := by rw [htable]
  have hslotu : ∀ j, u.table.slot j = s.table.slot j := fun j => by rw [htable]; rfl
  have horder : u.table.changeOrder = s.table.changeOrder := by rw [htable]
  refine ⟨hwaiting.trans (by rw [htable]), hsat, hsup.trans (by rw [hsupu]), fun hoff hok => ?_, fun hon r hr =>
    ⟨fun hc => ?_, fun hc => ?_⟩, fun j hj => (hslots j (by omega)).trans (hslotu j), hraised.trans (by rw [htable])⟩
  · rw [countSuppression_first v (hsatu.trans hoff), ← hsupu]
    exact raiseSaturated_slot (suppressed v u) (by
      show u.table.slots.length = 48
      rw [htable]
      exact hok.1)
  · rw [countSuppression_same v (hsatu.trans hon) (by rw [hsupu]; exact hc)]
    exact hslotu 0
  · have hslot0 : (suppressed v u).table.slot 0 = s.table.slot 0 := hslotu 0
    have hclock0 : (suppressed v u).clock = s.clock := hclock
    have horder0 : (suppressed v u).table.changeOrder = s.table.changeOrder := horder
    rw [countSuppression_more v (hsatu.trans hon) (by rw [hsupu]; exact hc),
      changeRecord_slot (r := r) (by rw [hslot0, hr]), hsupu, hslot0, hclock0, horder0]

/-! The order of changes (R123) -/

section Order

variable {s : State} {stages : List (List Change)} {free a b stage : List Change} {c : Change}

theorem takeLowest_some (t : Table) {l : List Change} (h : l ≠ []) : ∃ m rest, t.takeLowest l = some (m, rest) := by
  cases l with
  | nil => exact absurd rfl h
  | cons x l =>
    unfold Table.takeLowest
    split
    · split <;> exact ⟨_, _, rfl⟩
    · exact ⟨_, _, rfl⟩

theorem nextChange_free (t : Table) (h : t.takeLowest free = some (c, a)) :
    t.nextChange [] free = some (c, [], a) := by
  unfold Table.nextChange
  rw [h]
  rfl

theorem nextChange_emptyStage (t : Table) : t.nextChange ([] :: stages) free = t.nextChange stages free := rfl

theorem nextChange_stage (t : Table) (h : t.takeLowest stage = some (c, a))
    (hf : ∀ x ∈ free, t.changeSlot c ≤ t.changeSlot x) :
    t.nextChange (stage :: stages) free = some (c, a :: stages, free) := by
  rw [Table.nextChange, h]
  cases hfree : t.takeLowest free with
  | none => rfl
  | some m => exact if_neg (Nat.not_lt.mpr (hf m.1 (t.takeLowest_mem hfree)))

theorem nextChange_before (t : Table) (h : t.takeLowest free = some (c, a)) (hne : stage ≠ [])
    (hs : ∀ x ∈ stage, t.changeSlot c < t.changeSlot x) :
    t.nextChange (stage :: stages) free = some (c, stage :: stages, a) := by
  obtain ⟨m, rest, hm⟩ := takeLowest_some t hne
  rw [Table.nextChange, hm, h]
  exact if_pos (hs m (t.takeLowest_mem hm))

theorem makeNext_step {n : Nat} {stages₁ : List (List Change)} {free₁ : List Change}
    (h : s.table.nextChange stages free = some (c, stages₁, free₁)) :
    makeNext (n + 1) stages free s = makeNext n stages₁ free₁ (makeChange c s) := by
  rw [makeNext, h]

theorem makeChanges_emptyStage : makeChanges ([] :: stages) free s = makeChanges stages free s := by
  unfold makeChanges
  rw [List.flatten_cons, List.nil_append]
  cases stages.flatten.length + free.length with
  | zero => rfl
  | succ n => rw [makeNext, makeNext, nextChange_emptyStage]

variable (ha : ∀ x ∈ a, s.table.changeSlot c < s.table.changeSlot x)
  (hb : ∀ x ∈ b, s.table.changeSlot c ≤ s.table.changeSlot x)
include ha hb

/-- Of free changes, the lowest goes next. -/
theorem makeChanges_free : makeChanges [] (a ++ c :: b) s = makeChanges [] (a ++ b) (makeChange c s) := by
  have hlen : ([] : List (List Change)).flatten.length + (a ++ c :: b).length =
      (([] : List (List Change)).flatten.length + (a ++ b).length) + 1 := by
    simp only [List.length_append, List.length_cons]
    omega
  rw [makeChanges, hlen, makeNext_step (nextChange_free _ (s.table.takeLowest_eq a b c ha hb))]
  rfl

/-- Of the stage in hand, the lowest goes next where no free change is lower. -/
theorem makeChanges_stage (hf : ∀ x ∈ free, s.table.changeSlot c ≤ s.table.changeSlot x) :
    makeChanges ((a ++ c :: b) :: stages) free s = makeChanges ((a ++ b) :: stages) free (makeChange c s) := by
  have hlen : ((a ++ c :: b) :: stages).flatten.length + free.length =
      (((a ++ b) :: stages).flatten.length + free.length) + 1 := by
    simp only [List.flatten_cons, List.length_append, List.length_cons]
    omega
  rw [makeChanges, hlen, makeNext_step (nextChange_stage _ (s.table.takeLowest_eq a b c ha hb) hf)]
  rfl

/-- A free change lower than all of the stage in hand goes before it. -/
theorem makeChanges_before (hne : stage ≠ []) (hs : ∀ x ∈ stage, s.table.changeSlot c < s.table.changeSlot x) :
    makeChanges (stage :: stages) (a ++ c :: b) s = makeChanges (stage :: stages) (a ++ b) (makeChange c s) := by
  have hlen : (stage :: stages).flatten.length + (a ++ c :: b).length =
      ((stage :: stages).flatten.length + (a ++ b).length) + 1 := by
    simp only [List.length_append, List.length_cons]
    omega
  rw [makeChanges, hlen, makeNext_step (nextChange_before _ (s.table.takeLowest_eq a b c ha hb) hne hs)]
  rfl

end Order

theorem edgeSlot_unseated {t : Table} {e : Edge} (h : t.seatedAt? ⟨e.kind, e.number⟩ = none) :
    t.edgeSlot e = if e.extra = none then 48 else t.place?.getD 0 := by
  unfold Table.edgeSlot
  rw [h]
  cases e.extra <;> rfl

theorem edgeSlot_seated {t : Table} {e : Edge} {i : Nat} (h : t.seatedAt? ⟨e.kind, e.number⟩ = some i) :
    t.edgeSlot e = i := by
  unfold Table.edgeSlot
  rw [h]

theorem wakeLink_awake {s : State} (h : s.link.state ≠ .quiet) : wakeLink true s = s := if_neg h

theorem wakeLink_quiet {s : State} (h : s.link.state = .quiet) : wakeLink true s = setFlag .link (s.onLink fun l => { l with
    state := .online, heartbeatTimer := some (100 * (3 * s.link.period.getD 0)), statusOwed := true
    statusTimer := some (100 * s.link.period.getD 0), wakesOwed := l.wakesOwed + 1 }) := if_pos h

/-- Settles O32. -/
theorem raisesOnTheTable : Obligations.RaisesOnTheTable := by
  refine ⟨fun s k v x i r hk hr => raise_seated_stands hk hr, fun s k v x i hok hk hw h1 h47 hplace => ?_,
    fun s k v x hk hp => ?_, fun s => ⟨wakeLink_awake, wakeLink_quiet⟩, fun s stages free a b stage c => ?_,
    fun s es stages k n i x => ⟨rfl, rfl, rfl, rfl, rfl⟩⟩
  · refine raise_placed_stands hok hk hw h47 ?_
    obtain ⟨hi, hlow⟩ | ⟨hfull, r, hr, hd, hmin⟩ := hplace
    · exact place?_of_vacant h1 h47 hi hlow
    · exact place?_of_oldest h1 h47 hfull hr hd hmin
  · obtain ⟨hwaiting, hsat, hsup, hfirst, hmore, hslots, hraised⟩ := raise_held_stands v x hk hp
    intro t w counts behind
    refine ⟨fun hw hroom => ?_, fun hw hfull l e hl => ⟨fun hlt => ?_, fun hge => ?_⟩, fun hw => ?_, hsat, hsup,
      suppressions_add v _, ⟨hfirst, hmore⟩, hslots, hraised⟩
    · rw [hwaiting, if_pos hw, enlist_room hroom]
      exact placeWaiting_behind w s.table.waiting
    · rw [hwaiting, if_pos hw, hl, enlist_full (hl ▸ hfull), if_pos hlt]
      exact placeWaiting_behind w l
    · rw [hwaiting, if_pos hw, hl, enlist_full (hl ▸ hfull), if_neg (Nat.not_lt.mpr hge)]
    · rw [hwaiting, if_neg hw]
  · intro at_ lowest u
    have hat : at_ = s.table.changeSlot := by
      funext c
      cases c with
      | unshelve i => rfl
      | edge e =>
        cases hk : s.table.seatedAt? ⟨e.kind, e.number⟩ with
        | some i =>
          show _ = s.table.edgeSlot e
          rw [edgeSlot_seated hk]
          simp only [at_, hk]
        | none =>
          show _ = s.table.edgeSlot e
          rw [edgeSlot_unseated hk]
          simp only [at_, hk]
    unfold lowest
    rw [hat]
    refine ⟨rfl, makeChanges_emptyStage, ?_, ?_, ?_⟩
    · rintro ⟨rfl, ha, hb⟩
      exact makeChanges_free ha hb
    · rintro ⟨rfl, ha, hb⟩ hf
      exact makeChanges_stage ha hb hf
    · rintro ⟨rfl, ha, hb⟩ hne hs
      exact makeChanges_before ha hb hne hs

end Sys2Proof.Machine
end


section
/-!
SUPPORT. Acknowledgement and retirement by handle (O34), shelves (O35), and the panel's own conditions (O36).
-/

namespace Sys2Proof.Machine

open Host (Outcome)

/-! Handles (R122) -/

section Handles

variable {s : State} {i g : Nat} {r : Record}

theorem takeAcknowledge_error {o : ReplyCode} (party : Party) (h : s.table.resolve i g = .error o) :
    takeAcknowledge i g party s = (o, s) := by
  unfold takeAcknowledge
  rw [h]

theorem takeRetire_error {o : ReplyCode} (h : s.table.resolve i g = .error o) : takeRetire i g s = (o, s) := by
  unfold takeRetire
  rw [h]

theorem takeAcknowledge_ok {j : Nat} (party : Party) (h : s.table.resolve i g = .ok j) :
    takeAcknowledge i g party s = ackRecord j party s := by
  unfold takeAcknowledge
  rw [h]

theorem takeRetire_ok {j : Nat} (h : s.table.resolve i g = .ok j) : takeRetire i g s =
    if (s.table.slot j).dormantOrder?.isSome then (.done, retireSlot j s) else (.notDormant, s) := by
  unfold takeRetire
  rw [h]

/-! Acknowledgement (R128, R129) -/

theorem ackRecord_raised (party : Party) (h : (s.table.slot i).record = some r) (hs : r.state = .raised) :
    ackRecord i party s = (.done, if r.key.kind.latched
      then sendNotice r.key (changeRecord i (Record.acknowledge party) s)
      else changeRecord i (Record.acknowledge party) s) := by
  unfold ackRecord
  rw [h]
  dsimp only
  rw [hs]

theorem ackRecord_returned (party : Party) (h : (s.table.slot i).record = some r) (hs : r.state = .returned) :
    ackRecord i party s = (.done, if i = 0 then changeRecord i (Record.acknowledge party) s
      else serve (changeRecord i (Record.acknowledge party) s)) := by
  unfold ackRecord
  rw [h]
  dsimp only
  rw [hs]

theorem ackRecord_idle (party : Party) (h : (s.table.slot i).record = some r)
    (hs : r.state = .acked ∨ r.state = .dormant) : ackRecord i party s = (.already, s) := by
  unfold ackRecord
  rw [h]
  dsimp only
  obtain hs | hs := hs <;> rw [hs]

theorem ackRecord_vacant (party : Party) (h : (s.table.slot i).record = none) :
    ackRecord i party s = (.already, s) := by
  unfold ackRecord
  rw [h]

/-- A record as an acknowledgement leaves its slot. -/
theorem acknowledged_slot (party : Party) (h : (s.table.slot i).record = some r)
    (hs : r.state = .raised ∨ r.state = .returned) :
    (changeRecord i (Record.acknowledge party) s).table.slot i = { s.table.slot i with
      record := some { r with
        state := if r.state = .raised then .acked else .dormant, ackBy := party, lastChange := s.clock.station
        changeOrder := nextOrder s.table.changeOrder, townCurrent := false } } := by
  have hstate : r.state.acknowledge = if r.state = .raised then .acked else .dormant := by
    obtain hs | hs := hs <;> rw [hs] <;> rfl
  rw [changeRecord_slot h, ← hstate]
  rfl

theorem acknowledge_faces (party : Party) (h : (s.table.slot i).record = some r) :
    let t := changeRecord i (Record.acknowledge party) s
    (∀ j, j ≠ i → t.table.slot j = s.table.slot j) ∧ t.port.flags.condition = true ∧ t.pumps = s.pumps ∧
      t.screens = s.screens ∧ t.link = s.link ∧ t.table.waiting = s.table.waiting :=
  ⟨fun _ hj => changeRecord_slot_ne hj _ s, changeRecord_flag h _, (changeRecord_frame ..).pumps,
    (changeRecord_frame ..).screens, changeRecord_link .., changeRecord_waiting ..⟩

/-! Retirement (R130) -/

theorem retireSlot_eq : retireSlot i s = if i = 0 then removeRecord i s else serve (removeRecord i s) := rfl

end Handles

/-- Settles O34. -/
theorem acknowledgeAndRetire : Obligations.AcknowledgeAndRetire := by
  refine ⟨fun s i g party => ⟨fun h => ?_, fun h hs => ?_, fun h r hr hg => ?_⟩, fun s a g tag => ⟨fun h => ?_, fun h => ?_⟩⟩
  · exact ⟨takeAcknowledge_error party (resolve_far h), takeRetire_error (resolve_far h)⟩
  · exact ⟨takeAcknowledge_error party (resolve_stale h hs), takeRetire_error (resolve_stale h hs)⟩
  · intro served
    have hok := resolve_seated h hr hg
    refine ⟨fun hs => ?_, fun hs => ?_, fun hs => ⟨changeRecord i (Record.acknowledge party) s, ?_, ?_⟩,
      fun hs => ⟨removeRecord i s, ?_, ?_⟩⟩
    · rw [takeAcknowledge_ok party hok, ackRecord_idle party hr hs]
    · have hn : (s.table.slot i).dormantOrder? = none :=
        dormantOrder?_eq_none.mpr fun q hq => Option.some.inj (hr.symm.trans hq) ▸ hs
      rw [takeRetire_ok hok, hn]
      rfl
    · rw [takeAcknowledge_ok party hok]
      obtain hs | hs := hs
      · rw [ackRecord_raised party hr hs, if_neg (c := r.state = .returned) (by rw [hs]; nofun)]
      · rw [ackRecord_returned party hr hs, if_pos hs]
    · exact ⟨acknowledged_slot party hr hs, acknowledge_faces party hr⟩
    · have hd : (s.table.slot i).dormantOrder? = some r.changeOrder := dormantOrder?_eq_some.mpr ⟨r, hr, hs, rfl⟩
      rw [takeRetire_ok hok, hd]
      rfl
    · refine ⟨?_, fun j hj => removeRecord_slot_ne hj s, rfl, rfl⟩
      rw [removeRecord_slot (lt_of_record hr)]
      exact congrArg (fun x => (⟨x, none, some (nextOrder s.table.changeOrder)⟩ : Slot)) hg
  · exact ⟨exec_acknowledge h a g, exec_retire h a g⟩
  · exact ⟨exec_townAcknowledge h a g, exec_townRetire h a g⟩

/-! Shelving (R135, R136) -/

section Shelving

variable {s : State} {i g m : Nat} {r : Record}

/-- What neither a shelving nor an unshelving moves. -/
def OnFace (s t : State) : Prop := t = { s with table := t.table, port := t.port, ann := t.ann }

theorem OnFace.refl (s : State) : OnFace s s := rfl

theorem OnFace.trans {s t u : State} (h : OnFace s t) (k : OnFace t u) : OnFace s u := by
  unfold OnFace at *
  rw [k, h]

theorem OnFace.clock {s t : State} (h : OnFace s t) : t.clock = s.clock := by rw [h]

theorem OnFace.running {s t : State} (h : OnFace s t) : t.running = s.running := by
  unfold State.running
  rw [h]

theorem cmdShelve_error {o : ReplyCode} (h : s.table.resolve i g = .error o) : cmdShelve i g m s = reply o [] s := by
  unfold cmdShelve
  rw [h]

theorem cmdShelve_ok {j : Nat} (h : s.table.resolve i g = .ok j) : cmdShelve i g m s =
    if 1 ≤ m ∧ m ≤ 480 then
      if mayShelve j s then settleReply (.done, shelveSlot j m s) else reply .notShelvable [] s
    else reply .outOfRange [] s := by
  unfold cmdShelve
  rw [h]
  exact ite_of_iff (by rw [Bool.and_eq_true, decide_eq_true_eq, decide_eq_true_eq]) rfl rfl

theorem cmdUnshelve_error {o : ReplyCode} (h : s.table.resolve i g = .error o) : cmdUnshelve i g s = reply o [] s := by
  unfold cmdUnshelve
  rw [h]

theorem cmdUnshelve_ok {j : Nat} (h : s.table.resolve i g = .ok j) : cmdUnshelve i g s =
    if (s.table.slot j).record.any Record.shelved then settleReply (.done, unshelveSlot j s)
    else reply .already [] s := by
  unfold cmdUnshelve
  rw [h]

theorem mayShelve_iff (h : (s.table.slot i).record = some r) : mayShelve i s = true ↔
    r.key.kind.shelvable = true ∧ s.running.permitsShelving r.key.kind = true := by
  unfold mayShelve
  rw [h]
  exact Bool.and_eq_true_iff

theorem shelf_minutes (m : Nat) : seconds (60 * m) = some (6000 * m) := by
  unfold seconds
  rw [← Nat.mul_assoc]

theorem shelveSlot_new (h : (s.table.slot i).record = some r) (hs : r.shelved = false) : shelveSlot i m s =
    changeRecord i (fun _ => { r with shelved := true, shelf := some (6000 * m) }) s := by
  unfold shelveSlot
  rw [h]
  dsimp only
  rw [if_neg (Bool.eq_false_iff.mp hs), shelf_minutes]

theorem shelveSlot_again (h : (s.table.slot i).record = some r) (hs : r.shelved = true) : shelveSlot i m s =
    s.onTable fun t => { t with
      slots := t.slots.set i { t.slot i with record := some { r with shelf := some (6000 * m) } } } := by
  have hr : { r with shelved := true, shelf := some (6000 * m) } = { r with shelf := some (6000 * m) } := by
    rw [← hs]
  unfold shelveSlot
  rw [h]
  dsimp only
  rw [if_pos hs, shelf_minutes, hr]

theorem shelveSlot_blind (i m : Nat) : PortBlind (shelveSlot i m) := fun mk ph s => by
  unfold shelveSlot
  rw [facing_table]
  split
  · rfl
  · dsimp only
    rw [changeRecord_blind]
    split <;> rfl

/-- What a shelving leaves, whether its flag is new or not. -/
theorem shelveSlot_stands (h : (s.table.slot i).record = some r) (m : Nat) : let u := shelveSlot i m s
    u = { s with table := u.table, port := u.port } ∧ (∀ j, j ≠ i → u.table.slot j = s.table.slot j) ∧
    (r.shelved = false → (u.table.slot i).record = some { r with
        shelved := true, shelf := some (6000 * m), lastChange := s.clock.station
        changeOrder := nextOrder s.table.changeOrder, townCurrent := false } ∧
      u.table.changeOrder = nextOrder s.table.changeOrder ∧ u.port.flags.condition = true) ∧
    (r.shelved = true → u = s.onTable fun t => { t with
        slots := t.slots.set i { t.slot i with record := some { r with shelf := some (6000 * m) } } }) ∧
    ∃ q : Record, (u.table.slot i).record = some q ∧ q.shelved = true ∧ q.shelf = some (6000 * m) ∧
      q.key = r.key ∧ q.state = r.state ∧ q.ackBy = r.ackBy ∧ q.raiseCount = r.raiseCount ∧
      (r.shelved = true → q.changeOrder = r.changeOrder ∧ q.lastChange = r.lastChange) := by
  by_cases hs : r.shelved = true
  · rw [shelveSlot_again h hs]
    exact ⟨rfl, fun j hj => getD_set_ne _ hj, fun hn => absurd hs (by rw [hn]; nofun), fun _ => rfl,
      { r with shelf := some (6000 * m) }, congrArg Slot.record (getD_set_self _ (lt_of_record h)), hs, rfl, rfl, rfl, rfl,
      rfl, fun _ => ⟨rfl, rfl⟩⟩
  · rw [shelveSlot_new h (Bool.eq_false_iff.mpr hs)]
    obtain ⟨hslot, hne, hflag, hstate, -⟩ :=
      changeRecord_parts h fun _ => { r with shelved := true, shelf := some (6000 * m) }
    have hrec := congrArg Slot.record hslot
    exact ⟨hstate, hne, fun _ => ⟨hrec, changeRecord_order h _, hflag⟩, fun hn => absurd hn hs, _, hrec, rfl, rfl, rfl,
      rfl, rfl, rfl, fun hn => absurd hn hs⟩

/-! Unshelving (R136, R137) -/

/-- A record with its shelf ended. -/
def Record.unshelved (r : Record) : Record := { r with shelved := false, shelf := none }

theorem unshelveSlot_eq (h : (s.table.slot i).record = some r) : unshelveSlot i s =
    (fun u : State => u.onAnn fun a => { a with silence := s.ann.silence &&
      !(decide (r.state = .raised) && decide (s.running.hornThreshold ≤ r.severity.code)) })
      (changeRecord i (fun _ => r.unshelved) s) := by
  have hsounds : (r.state = .raised && (r.unshelved).sounds s.running) =
      (decide (r.state = .raised) && decide (s.running.hornThreshold ≤ r.severity.code)) := rfl
  have hann : (changeRecord i (fun _ => r.unshelved) s).ann = s.ann := changeRecord_ann ..
  unfold unshelveSlot
  rw [h]
  dsimp only
  rw [show (decide (r.state = .raised) && Record.sounds { r with shelved := false, shelf := none } s.running) = _ from
    hsounds]
  cases hd : decide (r.state = .raised) && decide (s.running.hornThreshold ≤ r.severity.code) with
  | true =>
    rw [Bool.not_true, Bool.and_false]
    rfl
  | false =>
    rw [Bool.not_false, Bool.and_true, ← hann]
    rfl

theorem unshelveSlot_stands (h : (s.table.slot i).record = some r) : let t := unshelveSlot i s
    t.table.slot i = { s.table.slot i with record := some { r with
      shelved := false, shelf := none, lastChange := s.clock.station
      changeOrder := nextOrder s.table.changeOrder, townCurrent := false } } ∧
    (∀ j, j ≠ i → t.table.slot j = s.table.slot j) ∧ t.port.flags.condition = true ∧
    t.ann = { s.ann with silence := s.ann.silence &&
      !(decide (r.state = .raised) && decide (s.running.hornThreshold ≤ r.severity.code)) } ∧
    t = { s with table := t.table, port := t.port, ann := t.ann } := by
  obtain ⟨hslot, hne, hflag, hstate, -⟩ := changeRecord_parts h fun _ => r.unshelved
  rw [unshelveSlot_eq h]
  refine ⟨hslot, hne, hflag, ?_, ?_⟩
  · exact congrArg (fun a : Annunciator => { a with silence := s.ann.silence &&
      !(decide (r.state = RecState.raised) && decide (s.running.hornThreshold ≤ r.severity.code)) }) (changeRecord_ann ..)
  · show (changeRecord i (fun _ => r.unshelved) s).onAnn _ = _
    rw [hstate]
    rfl

theorem forbiddenAt_iff {s : State} {i : Nat} : forbiddenAt s i = true ↔ ∃ r, (s.table.slot i).record = some r ∧
    r.shelved = true ∧ s.running.permitsShelving r.key.kind = false := by
  unfold forbiddenAt
  cases (s.table.slot i).record with
  | none => simp
  | some r => simp

theorem enforceMaskAt_hit (h : forbiddenAt s i = true) : enforceMaskAt i s = unshelveSlot i s := if_pos h

theorem enforceMaskAt_miss (h : ¬forbiddenAt s i = true) : enforceMaskAt i s = s := if_neg h

theorem enforceMaskAt_onFace (s : State) (i : Nat) : OnFace s (enforceMaskAt i s) := by
  by_cases h : forbiddenAt s i = true
  · obtain ⟨r, hr, -⟩ := forbiddenAt_iff.mp h
    rw [enforceMaskAt_hit h]
    exact (unshelveSlot_stands hr).2.2.2.2
  · rw [enforceMaskAt_miss h]
    exact .refl s

theorem enforceMaskAt_ne (s : State) (i j : Nat) (h : j ≠ i) : (enforceMaskAt i s).table.slot j = s.table.slot j := by
  by_cases hf : forbiddenAt s i = true
  · obtain ⟨r, hr, -⟩ := forbiddenAt_iff.mp hf
    rw [enforceMaskAt_hit hf]
    exact (unshelveSlot_stands hr).2.1 j h
  · rw [enforceMaskAt_miss hf]

/-- Unshelvings of ascending slots are made one after another (R123). -/
theorem makeChanges_unshelvings {l : List Nat} (hl : l.Pairwise (· ≤ ·)) (s : State) :
    makeChanges [] (l.map .unshelve) s = l.foldl (fun u i => enforceMaskAt i u) s := by
  induction l generalizing s with
  | nil => rfl
  | cons i l ih =>
    obtain ⟨hi, hl⟩ := List.pairwise_cons.mp hl
    have hstep : makeChanges [] (([] : List Change) ++ Change.unshelve i :: l.map .unshelve) s =
        makeChanges [] ([] ++ l.map .unshelve) (makeChange (.unshelve i) s) :=
      makeChanges_free nofun fun x hx => by
        obtain ⟨j, hj, rfl⟩ := List.mem_map.mp hx
        exact hi j hj
    exact hstep.trans (ih hl _)

end Shelving

/-! What a commit unshelves (R137) -/

section CommitShelves

variable (s : State)

theorem commitChanges_eq : commitChanges [] s =
    ((List.range 48).filter (forbiddenAt s)).foldl (fun u i => enforceMaskAt i u) s := by
  have hsorted : ((List.range 48).filter (forbiddenAt s)).Pairwise (· ≤ ·) :=
    (List.pairwise_lt_range.imp Nat.le_of_lt).filter _
  exact makeChanges_unshelvings hsorted s

theorem commitChanges_onFace : OnFace s (commitChanges [] s) := by
  rw [commitChanges_eq]
  exact foldl_frame OnFace .refl .trans _ enforceMaskAt_onFace _ s

theorem commitChanges_own (i : Nat) :
    (i ∉ (List.range 48).filter (forbiddenAt s) → (commitChanges [] s).table.slot i = s.table.slot i) ∧
    (i ∈ (List.range 48).filter (forbiddenAt s) → ∃ u, OnFace s u ∧ u.table.slot i = s.table.slot i ∧
      (commitChanges [] s).table.slot i = (enforceMaskAt i u).table.slot i) := by
  obtain ⟨hout, hin⟩ := foldl_ownSlot (R := OnFace) .refl .trans enforceMaskAt_onFace enforceMaskAt_ne
    (List.nodup_range.filter (forbiddenAt s)) s i
  rw [commitChanges_eq]
  exact ⟨hout, fun hi => (hin hi).imp fun u ⟨hu, hsame, _, hend⟩ => ⟨hu, hsame, hend⟩⟩

theorem commitChanges_hit {i : Nat} {r : Record} (hi : i < 48) (hr : (s.table.slot i).record = some r)
    (hs : r.shelved = true) (hp : s.running.permitsShelving r.key.kind = false) :
    ∃ o, (commitChanges [] s).table.slot i = { s.table.slot i with record := some { r with
      shelved := false, shelf := none, lastChange := s.clock.station, changeOrder := o, townCurrent := false } } := by
  have hf : forbiddenAt s i = true := forbiddenAt_iff.mpr ⟨r, hr, hs, hp⟩
  obtain ⟨u, hu, hsame, hend⟩ := (commitChanges_own s i).2 (List.mem_filter.mpr ⟨List.mem_range.mpr hi, hf⟩)
  have hru : (u.table.slot i).record = some r := (congrArg Slot.record hsame).trans hr
  have hfu : forbiddenAt u i = true := forbiddenAt_iff.mpr ⟨r, hru, hs, by rw [hu.running]; exact hp⟩
  refine ⟨nextOrder u.table.changeOrder, ?_⟩
  rw [hend, enforceMaskAt_hit hfu, (unshelveSlot_stands hru).1, hsame, hu.clock]

theorem commitChanges_miss {i : Nat} (h : ∀ r, (s.table.slot i).record = some r → r.shelved = true →
    s.running.permitsShelving r.key.kind = true) : (commitChanges [] s).table.slot i = s.table.slot i := by
  refine (commitChanges_own s i).1 fun hi => ?_
  obtain ⟨r, hr, hs, hp⟩ := forbiddenAt_iff.mp (List.mem_filter.mp hi).2
  exact absurd (h r hr hs) (by rw [hp]; nofun)

end CommitShelves

/-- Settles O35. -/
theorem shelvesHold : Obligations.Shelves := by
  refine ⟨fun s a g m r h => ⟨fun hfar => ?_, fun ha hs => ?_, fun ha hr hg => ?_⟩, fun s i r hr hs => ?_, fun s i => ?_,
    fun s => ⟨commitChanges_onFace s, fun i hi => ⟨fun r hr hs hp => commitChanges_hit s hi hr hs hp, commitChanges_miss s⟩⟩⟩
  · rw [exec_shelve h, exec_unshelve h, cmdShelve_error (resolve_far hfar), cmdUnshelve_error (resolve_far hfar)]
    exact ⟨rfl, rfl⟩
  · rw [exec_shelve h, exec_unshelve h, cmdShelve_error (s := s.taken 0x34 _) (resolve_stale ha hs),
      cmdUnshelve_error (s := s.taken 0x35 _) (resolve_stale ha hs)]
    exact ⟨rfl, rfl⟩
  · intro may
    have hok := resolve_seated ha hr hg
    have hmay : ∀ ps, mayShelve a.toNat (s.taken 0x34 ps) = true ↔ may := fun ps =>
      mayShelve_iff (s := s.taken 0x34 ps) hr
    refine ⟨fun hm => ?_, fun h1 h480 hn => ?_, fun h1 h480 hy => ⟨shelveSlot a.toNat m.toNat s, ?_, ?_⟩, fun hs => ?_,
      fun hs => ?_⟩
    · rw [exec_shelve h, cmdShelve_ok (s := s.taken 0x34 _) hok, if_neg (by omega)]
      rfl
    · rw [exec_shelve h, cmdShelve_ok (s := s.taken 0x34 _) hok, if_pos ⟨h1, h480⟩, if_neg fun e => hn ((hmay _).mp e)]
      rfl
    · rw [exec_shelve h, cmdShelve_ok (s := s.taken 0x34 _) hok, if_pos ⟨h1, h480⟩, if_pos ((hmay _).mpr hy),
        settleReply_blind (shelveSlot_blind a.toNat m.toNat)]
      rfl
    · exact shelveSlot_stands hr m.toNat
    · have hany : ((s.taken 0x35 [a, g]).table.slot a.toNat).record.any Record.shelved = false :=
        (congrArg (Option.any Record.shelved) hr).trans hs
      rw [exec_unshelve h, cmdUnshelve_ok (s := s.taken 0x35 _) hok, if_neg (Bool.eq_false_iff.mp hany)]
      rfl
    · have hany : ((s.taken 0x35 [a, g]).table.slot a.toNat).record.any Record.shelved = true :=
        (congrArg (Option.any Record.shelved) hr).trans hs
      rw [exec_unshelve h, cmdUnshelve_ok (s := s.taken 0x35 _) hok, if_pos hany,
        settleReply_blind (unshelveSlot_blind a.toNat)]
      rfl
  · obtain ⟨hslot, hne, hflag, hann, hstate⟩ := unshelveSlot_stands hr
    refine ⟨fun ht => ?_, congrArg Slot.record hslot, hne, hflag, hann, hstate⟩
    have hdue : eventDue (.shelfTimerExpiry i) s = true := by
      show (s.table.slot i.val).record.any (fun r => r.shelved && timerDue r.shelf) = true
      rw [hr]
      show (r.shelved && timerDue r.shelf) = true
      rw [hs, timerDue_on ht]
      rfl
    exact exec_due (i := .shelfTimerExpiry i) (s := s) rfl hdue
  · cases hr : (s.table.slot i).record with
    | none =>
      refine enforceMaskAt_miss fun hf => ?_
      obtain ⟨r, hr', -⟩ := forbiddenAt_iff.mp hf
      cases hr.symm.trans hr'
    | some r =>
      refine ite_of_iff (forbiddenAt_iff.trans ⟨fun ⟨q, hq, hn⟩ => ?_, fun hn => ⟨r, hr, hn⟩⟩) rfl rfl
      exact Option.some.inj (hr.symm.trans hq) ▸ hn

/-! The panel's own conditions (R138, R139) -/

section Posts

variable {s : State} {code : Nat} {i : Nat}

theorem cmdPost_severity {v l : Nat} (h : 3 < v) (data : List Byte) : cmdPost code v l data s = reply .outOfRange [] s := by
  have hnone : severityOf? v = none := by
    unfold severityOf?
    match v, h with
    | n + 4, _ => rfl
  unfold cmdPost
  rw [hnone]

theorem cmdPost_length {v l : Nat} (h : 8 < l) (data : List Byte) : cmdPost code v l data s = reply .outOfRange [] s := by
  unfold cmdPost
  split
  · exact if_neg (Nat.not_le.mpr h)
  · rfl

theorem cmdPost_post {v l : Nat} {sev : Severity} (hv : severityOf? v = some sev) (h : l ≤ 8) (data : List Byte) :
    cmdPost code v l data s = (fun r : Reply × State => conclude (reply r.1.code r.1.bytes r.2))
      (takePost code sev (data.take l) s) := by
  unfold cmdPost
  rw [hv]
  exact if_pos h

/-- A post that is seated, or finds a place, is a raise answered with the record's handle. -/
theorem takePost_seated (v : Severity) (x : List Byte) (h : s.table.seatedAt? ⟨.panelPosted, code⟩ = some i ∨
    (s.table.seatedAt? ⟨.panelPosted, code⟩ = none ∧ s.table.waitsAt? ⟨.panelPosted, code⟩ = none ∧
      s.table.place? = some i)) : takePost code v x s =
    (⟨.done, [byte i, byte ((raise ⟨.panelPosted, code⟩ v x s).table.slot i).gen]⟩,
      raise ⟨.panelPosted, code⟩ v x s) := by
  obtain h | ⟨h, hw, hp⟩ := h
  · have h1 : (countRaise s).table.seatedAt? ⟨.panelPosted, code⟩ = some i := h
    rw [raise_seated h, takePost]
    dsimp only
    rw [h1]
  · have h1 : (countRaise s).table.seatedAt? ⟨.panelPosted, code⟩ = none := h
    have h2 : (countRaise s).table.place? = some i := hp
    rw [raise_placed h hw hp, takePost]
    dsimp only
    rw [h1]
    dsimp only
    rw [h2]
    rfl

theorem takePost_nowhere (v : Severity) (x : List Byte) (h : s.table.seatedAt? ⟨.panelPosted, code⟩ = none)
    (hp : s.table.place? = none) : takePost code v x s = (.of .suppressed, countSuppression v (countRaise s)) := by
  have h1 : (countRaise s).table.seatedAt? ⟨.panelPosted, code⟩ = none := h
  have h2 : (countRaise s).table.place? = none := hp
  unfold takePost
  dsimp only
  rw [h1]
  dsimp only
  rw [h2]

theorem takeReturn_unseated (h : s.table.seatedAt? ⟨.panelPosted, code⟩ = none) : takeReturn code s = (.notFound, s) := by
  unfold takeReturn
  dsimp only
  rw [h]

theorem takeReturn_seated {r : Record} (h : s.table.seatedAt? ⟨.panelPosted, code⟩ = some i)
    (hr : (s.table.slot i).record = some r) : takeReturn code s =
    if r.state = .raised ∨ r.state = .acked then (.done, returnKey ⟨.panelPosted, code⟩ s) else (.already, s) := by
  unfold takeReturn
  dsimp only
  rw [h]
  dsimp only
  rw [hr]
  exact ite_of_iff (by simp) rfl rfl

end Posts

/-- Settles O36. -/
theorem panelConditions : Obligations.PanelConditions := by
  intro s code sev len data h hd k u x
  refine ⟨fun hbad => ?_, fun v i hv hl hplace => ?_, fun v hv hl hk hp => ?_, fun hk => ?_, fun i r hk hr =>
    ⟨fun hs => ?_, fun hs => ?_⟩⟩
  · rw [exec_postCondition h code sev len hd]
    obtain hbad | hbad := hbad
    · rw [cmdPost_severity hbad]
      rfl
    · rw [cmdPost_length hbad]
      rfl
  · rw [exec_postCondition h code sev len hd, cmdPost_post hv hl, takePost_seated (s := u) v x hplace]
  · rw [exec_postCondition h code sev len hd, cmdPost_post hv hl, takePost_nowhere (s := u) v _ hk hp]
    rfl
  · rw [exec_returnCondition h, cmdReturn, takeReturn_unseated (s := s.taken 0x39 [code]) hk]
    rfl
  · rw [exec_returnCondition h, cmdReturn, takeReturn_seated (s := s.taken 0x39 [code]) hk hr, if_pos hs]
    rfl
  · rw [exec_returnCondition h, cmdReturn, takeReturn_seated (s := s.taken 0x39 [code]) hk hr,
      if_neg (by obtain hs | hs := hs <;> rw [hs] <;> simp)]
    rfl

end Sys2Proof.Machine
end


section
/-!
SUPPORT. RETIRE DORMANT and ACKNOWLEDGE ALL (O37).
-/

namespace Sys2Proof.Machine

open Host (Outcome)

/-! Folds whose steps each move one slot, and ease others -/

/-- A fold of steps that each move their own slot, and the others by a relation only, moves a slot of its list by that
relation, its own step, and the relation again. -/
theorem foldl_slotwise {α : Type} {R : State → State → Prop} {E : Slot → Slot → Prop} (slot : α → Nat)
    (hr : ∀ s, R s s) (ht : ∀ {s t u}, R s t → R t u → R s u) (er : ∀ x, E x x) (et : ∀ {x y z}, E x y → E y z → E x z)
    {g : State → α → State} {P : State → Prop} (hP : ∀ s a, P s → P (g s a)) (hg : ∀ s a, R s (g s a))
    (hne : ∀ s a j, P s → j ≠ slot a → E (s.table.slot j) ((g s a).table.slot j)) {l : List α}
    (hl : (l.map slot).Nodup) (s : State) (hs : P s) (i : Nat) :
    (i ∉ l.map slot → E (s.table.slot i) ((l.foldl g s).table.slot i)) ∧
    (∀ a ∈ l, slot a = i → ∃ u, P u ∧ R s u ∧ E (s.table.slot i) (u.table.slot i) ∧ R (g u a) (l.foldl g s) ∧
      E ((g u a).table.slot i) ((l.foldl g s).table.slot i)) := by
  induction l generalizing s with
  | nil => exact ⟨fun _ => er _, nofun⟩
  | cons b l ih =>
    rw [List.map_cons] at hl
    obtain ⟨hb, hl⟩ := List.nodup_cons.mp hl
    obtain ⟨hout, hin⟩ := ih hl (g s b) (hP s b hs)
    rw [List.foldl_cons, List.map_cons]
    refine ⟨fun hi => ?_, fun a ha hai => ?_⟩
    · obtain ⟨hib, hil⟩ := List.ne_and_not_mem_of_not_mem_cons hi
      exact et (hne s b i hs hib) (hout hil)
    · obtain rfl | ha := List.mem_cons.mp ha
      · exact ⟨s, hs, hr s, er _, foldl_frame R hr ht g hg l _, hout (hai ▸ hb)⟩
      · have hib : i ≠ slot b := fun e => hb (List.mem_map.mpr ⟨a, ha, hai.trans e⟩)
        obtain ⟨u, hu, hsu, hsame, hrest, hend⟩ := hin a ha hai
        exact ⟨u, hu, ht (hg s b) hsu, et (hne s b i hs hib) hsame, hrest, hend⟩

/-! Notices as returns of latched kinds (R129) -/

theorem takeLowest_subset (t : Table) {l : List Change} {c : Change} {rest : List Change}
    (h : t.takeLowest l = some (c, rest)) : ∀ x ∈ rest, x ∈ l := by
  induction l generalizing c rest with
  | nil => cases h
  | cons a l ih =>
    unfold Table.takeLowest at h
    split at h
    next m r hm =>
      split at h <;> cases h
      · exact fun x hx => (List.mem_cons.mp hx).elim (fun e => e ▸ .head _) fun hx => .tail _ (ih hm x hx)
      · exact fun x hx => .tail _ hx
    next =>
      cases h
      exact fun x hx => .tail _ hx

/-- A relation that every one of some edges keeps is kept as they are offered. -/
theorem offerEdges_rel {R : State → State → Prop} (hr : ∀ s, R s s) (ht : ∀ {s t u}, R s t → R t u → R s u)
    {es : List Edge} (he : ∀ e ∈ es, ∀ s, R s (offerEdge e s)) (s : State) : R s (offerEdges es s) := by
  have hnext : ∀ (n : Nat) (free : List Change), (∀ c ∈ free, ∀ s, R s (makeChange c s)) →
      ∀ s, R s (makeNext n [] free s) := by
    intro n
    induction n with
    | zero => exact fun _ _ s => hr s
    | succ n ih =>
      intro free hf s
      cases hlow : s.table.takeLowest free with
      | none =>
        have hnone : s.table.nextChange [] free = none := by
          unfold Table.nextChange
          rw [hlow]
          rfl
        rw [makeNext, hnone]
        exact hr s
      | some m =>
        rw [makeNext_step (nextChange_free _ hlow)]
        exact ht (hf m.1 (s.table.takeLowest_mem hlow) s)
          (ih m.2 (fun c hc => hf c (takeLowest_subset _ hlow c hc)) _)
  refine hnext _ _ (fun c hc => ?_) s
  obtain ⟨e, hmem, rfl⟩ := List.mem_map.mp hc
  exact he e hmem

/-- A relation that a notice keeps: it looks at the table and the port only, and a return of a latched kind keeps it. -/
structure NoticeRel (R : State → State → Prop) : Prop where
  refl : ∀ s, R s s
  trans : ∀ {s t u}, R s t → R t u → R s u
  same : ∀ {s t : State}, t.table = s.table → t.port = s.port → R s t
  returns : ∀ (k : Key) (s : State), k.kind.latched = true → R s (returnKey k s)

theorem NoticeRel.before {R : State → State → Prop} (hR : NoticeRel R) {s u t : State} (k : R u t)
    (h : u.table = s.table) (hp : u.port = s.port) : R s t := hR.trans (hR.same h hp) k

section Notices

variable {R : State → State → Prop} (hR : NoticeRel R)
include hR

theorem NoticeRel.offer {es : List Edge} (he : ∀ e ∈ es, e.extra = none ∧ e.kind.latched = true) (s : State) :
    R s (offerEdges es s) := by
  refine offerEdges_rel hR.refl hR.trans (fun e hmem s => ?_) s
  obtain ⟨hnone, hlatched⟩ := he e hmem
  have hret : offerEdge e s = returnKey ⟨e.kind, e.number⟩ s := by
    unfold offerEdge
    rw [hnone]
    rfl
  rw [hret]
  exact hR.returns _ s hlatched

theorem NoticeRel.releaseReasons (p : Ix6) (s : State) : R s (releaseReasons p s) := by
  rw [releaseReasons_eq]
  refine hR.before (hR.offer (fun e he => ?_) _) rfl rfl
  simp only [List.mem_append] at he
  obtain (he | he) | he := he
  · split at he <;> simp_all [Kind.latched]
  · split at he <;> simp_all [Kind.latched]
  · split at he <;> simp_all [Kind.latched]

theorem NoticeRel.releaseRake (n : Ix2) (s : State) : R s (releaseRake n s) := by
  have hreturned : R s (rakeReturned n s) := by
    unfold rakeReturned
    refine hR.before (hR.offer (fun e he => ?_) _) rfl rfl
    simp only [List.mem_append] at he
    obtain (he | he) | he := he
    · split at he <;> simp_all [Kind.latched]
    · split at he <;> simp_all [Kind.latched]
    · split at he <;> simp_all [Kind.latched]
  rw [releaseRake_eq]
  split
  · refine hR.trans hreturned (hR.same ?_ ?_) <;> unfold joinQueue <;> split <;> rfl
  · exact hreturned

theorem NoticeRel.sendNotice (k : Key) (s : State) : R s (sendNotice k s) := by
  unfold Machine.sendNotice
  split
  · split
    · unfold pumpNotice
      split
      · exact hR.before (hR.releaseReasons _ _) rfl rfl
      · exact hR.refl s
    · exact hR.refl s
  · split
    · unfold rakeNotice
      split
      · exact hR.before (hR.releaseRake _ _) rfl rfl
      · exact hR.refl s
    · exact hR.refl s
  · split
    · unfold linkNotice
      split
      · exact hR.before (hR.returns ⟨.linkProtocol, 0⟩ _ rfl) rfl rfl
      · exact hR.refl s
    · exact hR.refl s

end Notices

/-! What stays to be acknowledged (R140) -/

/-- A record that is RAISED or RETURNED. -/
def Slot.live (x : Slot) : Prop := ∃ r, x.record = some r ∧ (r.state = .raised ∨ r.state = .returned)

/-- Every live record but that of a slot stays live, at its generation. -/
def LiveBut (i : Option Nat) (s t : State) : Prop := ∀ j, some j ≠ i → (s.table.slot j).live →
  (t.table.slot j).live ∧ (t.table.slot j).gen = (s.table.slot j).gen

theorem LiveBut.refl (i : Option Nat) (s : State) : LiveBut i s s := fun _ _ h => ⟨h, rfl⟩

theorem LiveBut.trans {i : Option Nat} {s t u : State} (h : LiveBut i s t) (k : LiveBut i t u) : LiveBut i s u :=
  fun j hj hl => ⟨(k j hj (h j hj hl).1).1, (k j hj (h j hj hl).1).2.trans (h j hj hl).2⟩

theorem LiveBut.of_slots {i : Option Nat} {s t : State} (h : t.table.slots = s.table.slots) : LiveBut i s t := by
  intro j _ hl
  unfold Table.slot at *
  rw [h]
  exact ⟨hl, rfl⟩

theorem changeRecord_liveBut (i : Nat) (f : Record → Record) (s : State) : LiveBut (some i) s (changeRecord i f s) :=
  fun j hj hl => by
    rw [changeRecord_slot_ne (by simpa using hj)]
    exact ⟨hl, rfl⟩

theorem seat_live {i : Nat} {s : State} (h : ¬(s.table.slot i).live) (k : Key) (v : Severity) (x : List Byte)
    (m : Stamp) : LiveBut none s (seat i k v x m s) := fun j _ hl => by
  have hj : j ≠ i := fun e => h (e ▸ hl)
  rw [seat_slot_ne hj]
  exact ⟨hl, rfl⟩

theorem place_notLive {t : Table} {i : Nat} (h : t.place? = some i) : ¬(t.slot i).live := by
  rintro ⟨q, hq, hlive⟩
  obtain ⟨-, -, ⟨hn, -⟩ | ⟨-, r, hr, hd, -⟩⟩ := place?_some h
  · cases hn.symm.trans hq
  · obtain rfl := Option.some.inj (hr.symm.trans hq)
    rw [hd] at hlive
    obtain hlive | hlive := hlive <;> cases hlive

theorem serveWaiting_live (n : Nat) (s : State) : LiveBut none s (serveWaiting n s) := by
  induction n generalizing s with
  | zero => exact .refl _ s
  | succ n ih =>
    unfold serveWaiting
    split
    next w rest i hw hp =>
      have hslots : (setWaiting rest s).table.slots = s.table.slots := setWaiting_slots ..
      have hlive : ¬((setWaiting rest s).table.slot i).live := by
        unfold Table.slot
        rw [hslots]
        exact place_notLive hp
      exact (LiveBut.of_slots hslots).trans (LiveBut.trans (seat_live hlive _ _ _ _) (ih _))
    next => exact .refl _ s

theorem changeRecord_eases {i : Nat} {r q : Record} {f : Record → Record} {s : State}
    (h : (s.table.slot i).record = some r) (hq : f r = q)
    (hlive : r.state = .raised ∨ r.state = .returned → q.state = .raised ∨ q.state = .returned) :
    LiveBut none s (changeRecord i f s) := by
  intro j _ hl
  by_cases hj : j = i
  · subst hj
    obtain ⟨r', hr', hs⟩ := hl
    obtain rfl := Option.some.inj (h.symm.trans hr')
    rw [changeRecord_slot h]
    exact ⟨⟨_, rfl, hq ▸ hlive hs⟩, rfl⟩
  · rw [changeRecord_slot_ne hj]
    exact ⟨hl, rfl⟩

theorem returnKey_live (k : Key) (s : State) : LiveBut none s (returnKey k s) := by
  cases hk : s.table.seatedAt? k with
  | none =>
    rw [returnKey_unseated hk]
    exact .of_slots (setWaiting_slots ..)
  | some i =>
    cases hr : (s.table.slot i).record with
    | none =>
      have hsame : returnKey k s = s := by
        unfold returnKey
        rw [hk]
        dsimp only
        rw [hr]
        rfl
      rw [hsame]
      exact .refl _ s
    | some r =>
      cases hs : r.state with
      | raised =>
        rw [returnKey_raised hk hr hs]
        exact changeRecord_eases hr rfl fun _ => .inr rfl
      | acked =>
        have hchange : LiveBut none s (changeRecord i (fun r => { r with state := .dormant }) s) :=
          changeRecord_eases hr rfl fun h => by rw [hs] at h; obtain h | h := h <;> cases h
        rw [returnKey_acked hk hr hs]
        split
        · exact hchange
        · exact hchange.trans (serveWaiting_live _ _)
      | returned =>
        rw [returnKey_gone hk hr (.inl hs)]
        exact .refl _ s
      | dormant =>
        rw [returnKey_gone hk hr (.inr hs)]
        exact .refl _ s

theorem live_noticeRel : NoticeRel (LiveBut none) :=
  ⟨.refl _, .trans, fun h _ => .of_slots (congrArg Table.slots h), fun k s _ => returnKey_live k s⟩

theorem LiveBut.weaken {i : Option Nat} {s t : State} (h : LiveBut none s t) : LiveBut i s t :=
  fun j _ hl => h j nofun hl

/-- A live record is acknowledged, and every other live one stays live. -/
theorem ackRecord_live {i : Nat} {s : State} (h : (s.table.slot i).live) :
    (ackRecord i .panel s).1 = .done ∧ LiveBut (some i) s (ackRecord i .panel s).2 := by
  have hchange := changeRecord_liveBut i (Record.acknowledge .panel) s
  obtain ⟨r, hr, hs | hs⟩ := h
  · rw [ackRecord_raised .panel hr hs]
    refine ⟨rfl, ?_⟩
    dsimp only
    split
    · exact hchange.trans (LiveBut.weaken (live_noticeRel.sendNotice _ _))
    · exact hchange
  · rw [ackRecord_returned .panel hr hs]
    refine ⟨rfl, ?_⟩
    dsimp only
    split
    · exact hchange
    · exact hchange.trans (LiveBut.weaken (serveWaiting_live _ _))

/-- Every record of the set is acknowledged, whatever the notices and the serving of others did. -/
theorem ackNext_count {l : List (Nat × Nat)} (hl : (l.map Prod.fst).Nodup) (c : Nat) (s : State)
    (h : ∀ a ∈ l, (s.table.slot a.1).live ∧ (s.table.slot a.1).gen = a.2) :
    (l.foldl ackNext (c, s)).1 = c + l.length := by
  induction l generalizing c s with
  | nil => rfl
  | cons a l ih =>
    rw [List.map_cons] at hl
    obtain ⟨ha, hl⟩ := List.nodup_cons.mp hl
    obtain ⟨hlive, hgen⟩ := h a (.head _)
    obtain ⟨hdone, hrest⟩ := ackRecord_live hlive
    have hstep : ackNext (c, s) a = (c + 1, (ackRecord a.1 .panel s).2) := by
      unfold ackNext
      dsimp only
      rw [if_pos hgen, if_pos hdone]
    rw [List.foldl_cons, hstep, ih hl, List.length_cons]
    · omega
    · intro b hb
      obtain ⟨hblive, hbgen⟩ := h b (.tail _ hb)
      have hne : some b.1 ≠ some a.1 := fun e => ha (List.mem_map.mpr ⟨b, hb, Option.some.inj e⟩)
      obtain ⟨h1, h2⟩ := hrest b.1 hne hblive
      exact ⟨h1, h2.trans hbgen⟩

/-! What a notice eases (R125, R129) -/

theorem seatedAt?_record {t : Table} {k : Key} {i : Nat} (h : t.seatedAt? k = some i) :
    ∃ r, (t.slot i).record = some r ∧ r.key = k := by
  obtain ⟨hi, hold, -⟩ := List.findIdx?_eq_some_iff_getElem.mp h
  have hslot : t.slot i = t.slots[i] := by simp [Table.slot, hi]
  rw [← hslot] at hold
  unfold Slot.holds at hold
  obtain ⟨r, hr, hk⟩ := Option.map_eq_some_iff.mp (eq_of_beq hold)
  exact ⟨r, hr, hk⟩

/-- A slot as it stood, or with the record of a latched kind returned. -/
def Slot.eased (x y : Slot) : Prop := y = x ∨ ∃ r q, x.record = some r ∧ y.record = some q ∧ y.gen = x.gen ∧
  r.key.kind.latched = true ∧ q.key = r.key ∧ q.ackBy = r.ackBy ∧
  ((r.state = .raised ∧ q.state = .returned) ∨ (r.state = .acked ∧ q.state = .dormant))

theorem Slot.eased_trans {x y z : Slot} (h : x.eased y) (k : y.eased z) : x.eased z := by
  obtain rfl | ⟨r, q, hr, hq, hg, hl, hk, ha, hs⟩ := h
  · exact k
  · obtain rfl | ⟨q', p, hq', -, -, -, -, -, hs'⟩ := k
    · exact .inr ⟨r, q, hr, hq, hg, hl, hk, ha, hs⟩
    · obtain rfl := Option.some.inj (hq.symm.trans hq')
      obtain ⟨-, hs⟩ | ⟨-, hs⟩ := hs <;> obtain ⟨hs', -⟩ | ⟨hs', -⟩ := hs' <;> cases hs.symm.trans hs'

theorem Slot.eased_unlatched {x y : Slot} {r : Record} (h : x.eased y) (hr : x.record = some r)
    (hl : r.key.kind.latched = false) : y = x := by
  obtain h | ⟨r', -, hr', -, -, hl', -⟩ := h
  · exact h
  · obtain rfl := Option.some.inj (hr.symm.trans hr')
    exact absurd hl' (by rw [hl]; nofun)

theorem Slot.eased_still {x y : Slot} {r : Record} (h : x.eased y) (hr : x.record = some r)
    (hs : r.state = .returned ∨ r.state = .dormant) : y = x := by
  obtain h | ⟨r', q, hr', -, -, -, -, -, hs'⟩ := h
  · exact h
  · obtain rfl := Option.some.inj (hr.symm.trans hr')
    obtain hs | hs := hs <;> obtain ⟨hs', -⟩ | ⟨hs', -⟩ := hs' <;> cases hs.symm.trans hs'

/-- An eased record keeps its key and its acknowledging party. -/
theorem Slot.eased_record {x y : Slot} {r : Record} (h : x.eased y) (hr : x.record = some r) :
    ∃ q, y.record = some q ∧ y.gen = x.gen ∧ q.key = r.key ∧ q.ackBy = r.ackBy ∧
      (q.state = r.state ∨ (r.state = .raised ∧ q.state = .returned) ∨ (r.state = .acked ∧ q.state = .dormant)) := by
  obtain rfl | ⟨r', q, hr', hq, hg, -, hk, ha, hs⟩ := h
  · exact ⟨r, hr, rfl, rfl, rfl, .inl rfl⟩
  · obtain rfl := Option.some.inj (hr.symm.trans hr')
    exact ⟨q, hq, hg, hk, ha, .inr hs⟩

/-- With no entry waiting, none waits after it, and every slot is eased; the condition flag only rises. -/
def Eases (s t : State) : Prop :=
  (s.table.waiting = [] → t.table.waiting = [] ∧ ∀ j, (s.table.slot j).eased (t.table.slot j)) ∧
    (s.port.flags.condition = true → t.port.flags.condition = true)

theorem Eases.refl (s : State) : Eases s s := ⟨fun h => ⟨h, fun _ => .inl rfl⟩, id⟩

theorem Eases.trans {s t u : State} (h : Eases s t) (k : Eases t u) : Eases s u :=
  ⟨fun hw => ⟨(k.1 (h.1 hw).1).1, fun j => Slot.eased_trans ((h.1 hw).2 j) ((k.1 (h.1 hw).1).2 j)⟩, k.2 ∘ h.2⟩

theorem serve_none {s : State} (h : s.table.waiting = []) (i : Nat) (f : Record → Record) :
    serve (changeRecord i f s) = changeRecord i f s := serve_nil ((changeRecord_waiting ..).trans h)

/-- A change that returns a record of a latched kind eases its slot. -/
theorem changeRecord_returns {i : Nat} {r : Record} {f : Record → Record} {s : State}
    (hr : (s.table.slot i).record = some r) (hl : r.key.kind.latched = true) (hk : (f r).key = r.key)
    (ha : (f r).ackBy = r.ackBy)
    (hs : (r.state = .raised ∧ (f r).state = .returned) ∨ (r.state = .acked ∧ (f r).state = .dormant)) :
    Eases s (changeRecord i f s) := by
  refine ⟨fun hw => ⟨(changeRecord_waiting ..).trans hw, fun j => ?_⟩, fun _ => changeRecord_flag hr f⟩
  by_cases hj : j = i
  · subst hj
    rw [changeRecord_slot hr]
    exact .inr ⟨r, _, hr, rfl, rfl, hl, hk, ha, hs⟩
  · rw [changeRecord_slot_ne hj]
    exact .inl rfl

theorem returnKey_eases {k : Key} (hl : k.kind.latched = true) (s : State) : Eases s (returnKey k s) := by
  cases hk : s.table.seatedAt? k with
  | none =>
    rw [returnKey_unseated hk]
    refine ⟨fun hw => ?_, fun hf => ?_⟩
    · rw [setWaiting_same (by rw [hw]; rfl)]
      exact ⟨hw, fun _ => .inl rfl⟩
    · unfold setWaiting
      split
      · exact hf
      · rfl
  | some i =>
    obtain ⟨r, hr, rfl⟩ := seatedAt?_record hk
    cases hs : r.state with
    | raised =>
      rw [returnKey_raised hk hr hs]
      exact changeRecord_returns hr hl rfl rfl (.inl ⟨hs, rfl⟩)
    | acked =>
      have hchange : Eases s (changeRecord i (fun r => { r with state := .dormant }) s) :=
        changeRecord_returns hr hl rfl rfl (.inr ⟨hs, rfl⟩)
      rw [returnKey_acked hk hr hs]
      split
      · exact hchange
      · refine ⟨fun hw => ?_, fun hf => ?_⟩
        · rw [serve_none hw]
          exact hchange.1 hw
        · exact (serveWaiting_frame ..).flags .condition (hchange.2 hf)
    | returned =>
      rw [returnKey_gone hk hr (.inl hs)]
      exact .refl s
    | dormant =>
      rw [returnKey_gone hk hr (.inr hs)]
      exact .refl s

theorem eases_noticeRel : NoticeRel Eases :=
  ⟨.refl, .trans, fun {s t} h hp => ⟨fun hw => ⟨by rw [h]; exact hw, fun j => .inl (by rw [h])⟩, fun hf => by rw [hp]; exact hf⟩,
    fun _ s hl => returnKey_eases hl s⟩

/-! The step of ACKNOWLEDGE ALL at one handle -/

section AckStep

/-- The step of ACKNOWLEDGE ALL, but for its count. -/
def ackStep (s : State) (h : Nat × Nat) : State :=
  if (s.table.slot h.1).gen = h.2 then (ackRecord h.1 .panel s).2 else s

theorem ackNext_state (l : List (Nat × Nat)) (c : Nat) (s : State) :
    (l.foldl ackNext (c, s)).2 = l.foldl ackStep s := by
  induction l generalizing c s with
  | nil => rfl
  | cons a l ih =>
    have hstep : (ackNext (c, s) a).2 = ackStep s a := by
      unfold ackNext ackStep
      split <;> rfl
    rw [List.foldl_cons, List.foldl_cons, ← hstep]
    exact ih (ackNext (c, s) a).1 (ackNext (c, s) a).2

/-- With no entry waiting, an acknowledgement is a change of its record, and eased slots beside it. -/
theorem ackRecord_eases {i : Nat} {r : Record} {s : State} (hw : s.table.waiting = [])
    (hr : (s.table.slot i).record = some r) (hs : r.state = .raised ∨ r.state = .returned) :
    Eases (changeRecord i (Record.acknowledge .panel) s) (ackRecord i .panel s).2 := by
  obtain hs | hs := hs
  · rw [ackRecord_raised .panel hr hs]
    dsimp only
    split
    · exact eases_noticeRel.sendNotice _ _
    · exact .refl _
  · rw [ackRecord_returned .panel hr hs]
    dsimp only
    rw [serve_none hw, ite_self]
    exact .refl _

theorem ackRecord_notLive {i : Nat} {s : State} (h : ¬(s.table.slot i).live) : (ackRecord i .panel s).2 = s := by
  cases hr : (s.table.slot i).record with
  | none => rw [ackRecord_vacant .panel hr]
  | some r =>
    rw [ackRecord_idle .panel hr]
    cases hs : r.state with
    | raised => exact absurd ⟨r, hr, .inl hs⟩ h
    | returned => exact absurd ⟨r, hr, .inr hs⟩ h
    | acked => exact .inl rfl
    | dormant => exact .inr rfl

theorem ackStep_stands (s : State) (a : Nat × Nat) (hw : s.table.waiting = []) : (ackStep s a).table.waiting = [] ∧
    (s.port.flags.condition = true → (ackStep s a).port.flags.condition = true) ∧
    ∀ j, j ≠ a.1 → (s.table.slot j).eased ((ackStep s a).table.slot j) := by
  unfold ackStep
  split
  · by_cases hlive : (s.table.slot a.1).live
    · obtain ⟨r, hr, hs⟩ := hlive
      obtain ⟨hquiet, hflag⟩ := ackRecord_eases hw hr hs
      obtain ⟨hnone, hslots⟩ := hquiet ((changeRecord_waiting ..).trans hw)
      refine ⟨hnone, fun _ => hflag (changeRecord_flag hr _), fun j hj => ?_⟩
      have hone := hslots j
      rwa [changeRecord_slot_ne hj] at hone
    · rw [ackRecord_notLive hlive]
      exact ⟨hw, id, fun _ _ => .inl rfl⟩
  · exact ⟨hw, id, fun _ _ => .inl rfl⟩

/-- The flag that the acknowledgements raise stays raised. -/
def FlagKept (s t : State) : Prop := s.table.waiting = [] → t.table.waiting = [] ∧
  (s.port.flags.condition = true → t.port.flags.condition = true)

theorem FlagKept.trans {s t u : State} (h : FlagKept s t) (k : FlagKept t u) : FlagKept s u :=
  fun hw => ⟨(k (h hw).1).1, (k (h hw).1).2 ∘ (h hw).2⟩

theorem ackStep_flagKept (s : State) (a : Nat × Nat) : FlagKept s (ackStep s a) :=
  fun hw => ⟨(ackStep_stands s a hw).1, (ackStep_stands s a hw).2.1⟩

/-- What ACKNOWLEDGE ALL does to one slot, with no entry waiting. -/
theorem ackAll_slot {l : List (Nat × Nat)} (hl : (l.map Prod.fst).Nodup) {s : State} (hw : s.table.waiting = [])
    (i : Nat) : (i ∉ l.map Prod.fst → (s.table.slot i).eased ((l.foldl ackStep s).table.slot i)) ∧
    (∀ a ∈ l, a.1 = i → ∃ u, u.table.waiting = [] ∧ (s.table.slot i).eased (u.table.slot i) ∧
      FlagKept (ackStep u a) (l.foldl ackStep s) ∧
      ((ackStep u a).table.slot i).eased ((l.foldl ackStep s).table.slot i)) := by
  obtain ⟨hout, hin⟩ := foldl_slotwise (R := FlagKept) (E := Slot.eased) (P := fun u => u.table.waiting = []) Prod.fst
    (fun _ h => ⟨h, id⟩) FlagKept.trans (fun _ => .inl rfl) Slot.eased_trans
    (fun s a h => (ackStep_stands s a h).1) ackStep_flagKept (fun s a j h hj => (ackStep_stands s a h).2.2 j hj) hl s hw i
  exact ⟨hout, fun a ha hai => (hin a ha hai).imp fun u ⟨hu, _, hsame, hrest, hend⟩ => ⟨hu, hsame, hrest, hend⟩⟩

/-- A live record's own step: ACKED or DORMANT, acknowledged by the panel. -/
theorem ackStep_own {u : State} {i : Nat} {r : Record} (hw : u.table.waiting = []) (hr : (u.table.slot i).record = some r)
    (hs : r.state = .raised ∨ r.state = .returned) : ∃ q, ((ackStep u (i, (u.table.slot i).gen)).table.slot i).record =
      some q ∧ q.ackBy = .panel ∧ q.key = r.key ∧ (q.state = .acked ∨ q.state = .dormant) ∧
      (r.state = .returned ∨ r.key.kind.latched = false → q.state = if r.state = .raised then .acked else .dormant) ∧
      (ackStep u (i, (u.table.slot i).gen)).port.flags.condition = true := by
  have hstep : ackStep u (i, (u.table.slot i).gen) = (ackRecord i .panel u).2 := if_pos rfl
  obtain ⟨hquiet, hflag⟩ := ackRecord_eases hw hr hs
  have heased := (hquiet ((changeRecord_waiting ..).trans hw)).2 i
  rw [hstep]
  have hslot := acknowledged_slot (s := u) .panel hr hs
  have hrec := congrArg Slot.record hslot
  obtain ⟨q, hq, -, hkey, hack, hstate⟩ := Slot.eased_record heased hrec
  refine ⟨q, hq, hack, hkey, ?_, fun hplain => ?_, hflag (changeRecord_flag hr _)⟩
  · obtain hstate | ⟨hraised, -⟩ | ⟨-, hstate⟩ := hstate
    · rw [hstate]
      split
      · exact .inl rfl
      · exact .inr rfl
    · dsimp only at hraised
      split at hraised <;> cases hraised
    · exact .inr hstate
  · obtain hback | hplain := hplain
    · have hstill := Slot.eased_still heased hrec (.inr (by dsimp only; rw [hback]; rfl))
      rw [hstill] at hq
      exact congrArg Record.state (Option.some.inj (hq.symm.trans hrec))
    · have hstill := Slot.eased_unlatched heased hrec hplain
      rw [hstill] at hq
      exact congrArg Record.state (Option.some.inj (hq.symm.trans hrec))

end AckStep

/-! The set of ACKNOWLEDGE ALL (R140) -/

section AckSet

variable {v : Severity} {c : Option SourceClass} {all : Bool} {s : State}

/-- A record that ACKNOWLEDGE ALL takes, as the rule lists it. -/
def Meets (v : Severity) (c : Option SourceClass) (all : Bool) (r : Record) : Prop :=
  (r.state = .raised ∨ r.state = .returned) ∧ v.code ≤ r.severity.code ∧
    (c = none ∨ c = some r.key.kind.cls) ∧ (all = true ∨ r.shelved = false)

theorem answersAll_iff (r : Record) : r.answersAll v c all = true ↔ Meets v c all r := by
  unfold Record.answersAll Meets Severity.atLeast
  simp only [Bool.and_eq_true, Bool.or_eq_true, decide_eq_true_eq, Option.isNone_iff_eq_none, Bool.not_eq_true', and_assoc]

theorem any_answersAll {x : Slot} :
    x.record.any (Record.answersAll v c all) = true ↔ ∃ r, x.record = some r ∧ Meets v c all r := by
  cases x.record with
  | none => simp
  | some r => simp [answersAll_iff]

theorem ackSet_fst : (ackSet v c all s.table).map Prod.fst =
    (List.range 48).filter fun i => (s.table.slot i).record.any (Record.answersAll v c all) := by
  unfold ackSet
  rw [List.map_map]
  exact List.map_id'' (fun _ => rfl) _

theorem ackSet_nodup : ((ackSet v c all s.table).map Prod.fst).Nodup := by
  rw [ackSet_fst]
  exact List.nodup_range.filter _

theorem mem_ackSet {a : Nat × Nat} (h : a ∈ ackSet v c all s.table) :
    (s.table.slot a.1).live ∧ (s.table.slot a.1).gen = a.2 := by
  obtain ⟨i, hi, rfl⟩ := List.mem_map.mp h
  obtain ⟨r, hr, hm, -⟩ := any_answersAll.mp (List.mem_filter.mp hi).2
  exact ⟨⟨r, hr, hm⟩, rfl⟩

theorem ackSet_length : (ackSet v c all s.table).length =
    (List.range 48).countP fun i => (s.table.slot i).record.any (Record.answersAll v c all) := by
  unfold ackSet
  rw [List.length_map, List.countP_eq_length_filter]

theorem takeAckAll_eq : takeAckAll v c all s = if ackSet v c all s.table = [] then (.already, 0, s)
    else (.done, (ackSet v c all s.table).length, (ackSet v c all s.table).foldl ackStep s) := by
  have hcount := ackNext_count (s := s) ackSet_nodup 0 fun a ha => mem_ackSet (v := v) (c := c) (all := all) ha
  have hstate := ackNext_state (ackSet v c all s.table) 0 s
  unfold takeAckAll
  split
  next h => rw [if_pos h]
  next h hs he =>
    rw [he] at hcount hstate ⊢
    rw [if_neg (List.cons_ne_nil _ _), ← hstate, ← (Nat.zero_add (h :: hs).length), ← hcount]

theorem takeAckAll_state : (takeAckAll v c all s).2.2 = (ackSet v c all s.table).foldl ackStep s := by
  rw [takeAckAll_eq]
  split
  next h => rw [h]; rfl
  next => rfl

/-- A record of the set, as ACKNOWLEDGE ALL ends with nothing waiting. -/
theorem ackAll_met {i : Nat} {r : Record} (hw : s.table.waiting = []) (hi : i < 48) (hr : (s.table.slot i).record = some r)
    (hm : Meets v c all r) : ∃ q, (((takeAckAll v c all s).2.2).table.slot i).record = some q ∧ q.ackBy = .panel ∧
      q.key = r.key ∧ (r.state = .returned ∨ r.key.kind.latched = false →
        q.state = (if r.state = .raised then .acked else .dormant)) ∧
      (q.state = .acked ∨ q.state = .dormant) ∧ (takeAckAll v c all s).2.2.port.flags.condition = true := by
  have hmem : (i, (s.table.slot i).gen) ∈ ackSet v c all s.table := List.mem_map.mpr
    ⟨i, List.mem_filter.mpr ⟨List.mem_range.mpr hi, any_answersAll.mpr ⟨r, hr, hm⟩⟩, rfl⟩
  rw [takeAckAll_state]
  obtain ⟨u, huw, hsame, hrest, hend⟩ := (ackAll_slot ackSet_nodup hw i).2 _ hmem rfl
  obtain ⟨r', hr', hgen, hkey, -, hstate⟩ := Slot.eased_record hsame hr
  have hlive : r'.state = .raised ∨ r'.state = .returned := by
    obtain h | ⟨-, h⟩ | ⟨h, -⟩ := hstate
    · rw [h]
      exact hm.1
    · exact .inr h
    · obtain h' | h' := hm.1 <;> cases h.symm.trans h'
  obtain ⟨q, hq, hack, hqkey, hqstate, hplain, hflag⟩ := ackStep_own huw hr' hlive
  rw [hgen] at hq hflag
  obtain ⟨p, hp, -, hpkey, hpack, hpstate⟩ := Slot.eased_record hend hq
  refine ⟨p, hp, hpack.trans hack, hpkey.trans (hqkey.trans hkey), fun hcase => ?_, ?_, ?_⟩
  · obtain hback | hplainKind := hcase
    · have hr'' := hr'
      rw [Slot.eased_still hsame hr (.inl hback)] at hr''
      obtain rfl := Option.some.inj (hr.symm.trans hr'')
      have hdormant := hplain (.inl hback)
      rw [hback] at hdormant ⊢
      have hp' := hp
      rw [Slot.eased_still hend hq (.inr hdormant)] at hp'
      obtain rfl := Option.some.inj (hq.symm.trans hp')
      exact hdormant
    · have hr'' := hr'
      rw [Slot.eased_unlatched hsame hr hplainKind] at hr''
      obtain rfl := Option.some.inj (hr.symm.trans hr'')
      have hp' := hp
      rw [Slot.eased_unlatched hend hq (by rw [hqkey]; exact hplainKind)] at hp'
      obtain rfl := Option.some.inj (hq.symm.trans hp')
      exact hplain (.inr hplainKind)
  · obtain h | ⟨h, -⟩ | ⟨-, h⟩ := hpstate
    · rw [h]
      exact hqstate
    · obtain h' | h' := hqstate <;> cases h.symm.trans h'
    · exact .inr h
  · exact (hrest (ackStep_stands u _ huw).1).2 hflag

/-- A record outside the set whose kind is not latched does not move, with nothing waiting. -/
theorem ackAll_unmet {i : Nat} {r : Record} (hw : s.table.waiting = []) (hr : (s.table.slot i).record = some r)
    (hm : ¬Meets v c all r) (hl : r.key.kind.latched = false) :
    ((takeAckAll v c all s).2.2).table.slot i = s.table.slot i := by
  have hout : i ∉ (ackSet v c all s.table).map Prod.fst := by
    rw [ackSet_fst]
    intro h
    obtain ⟨r', hr', hm'⟩ := any_answersAll.mp (List.mem_filter.mp h).2
    obtain rfl := Option.some.inj (hr.symm.trans hr')
    exact hm hm'
  rw [takeAckAll_state]
  exact Slot.eased_unlatched ((ackAll_slot ackSet_nodup hw i).1 hout) hr hl

end AckSet

theorem ackSet_count {v : Severity} {c : Option SourceClass} {all : Bool} {s : State} {f : Record → Bool}
    (hf : ∀ r, f r = true ↔ Meets v c all r) : (ackSet v c all s.table).length =
      (List.range 48).countP fun i => (s.table.slot i).record.any f := by
  have hsame : Record.answersAll v c all = f := funext fun r => Bool.eq_iff_iff.mpr ((answersAll_iff r).trans (hf r).symm)
  rw [ackSet_length, hsame]

theorem severityOf?_le {n : Nat} {v : Severity} (h : severityOf? n = some v) : n ≤ 3 := by
  refine Classical.byContradiction fun hn => ?_
  obtain ⟨m, rfl⟩ := Nat.exists_eq_add_of_le' (Nat.succ_le_of_lt (Nat.lt_of_not_le hn))
  cases h

theorem classFilter?_le {n : Nat} {c : Option SourceClass} (h : classFilter? n = some c) : n ≤ 8 ∨ n = 255 := by
  unfold classFilter? at h
  split at h
  next hany => exact .inr hany
  next =>
    refine .inl ?_
    refine Classical.byContradiction fun hn => ?_
    obtain ⟨m, rfl⟩ := Nat.exists_eq_add_of_le' (Nat.succ_le_of_lt (Nat.lt_of_not_le hn))
    cases h

theorem cmdAckAll_out {sev cls sh : Nat} (h : 3 < sev ∨ 1 < sh ∨ (8 < cls ∧ cls ≠ 255)) (s : State) :
    cmdAckAll sev cls sh s = reply .outOfRange [] s := by
  unfold cmdAckAll
  split
  next v c hv hc =>
    have hsev := severityOf?_le hv
    have hcls := classFilter?_le hc
    exact if_neg (by omega)
  next => rfl

/-! RETIRE DORMANT (R141) -/

/-- What the retirements leave: the table's size and its waiting list, and counts of suppressions once they are 0. -/
def Retires (s t : State) : Prop := t.table.slots.length = s.table.slots.length ∧ t.table.waiting = s.table.waiting ∧
  (s.table.suppressed = ⟨0, 0, 0, 0⟩ → t.table.suppressed = ⟨0, 0, 0, 0⟩)

theorem Retires.trans {s t u : State} (h : Retires s t) (k : Retires t u) : Retires s u :=
  ⟨k.1.trans h.1, k.2.1.trans h.2.1, k.2.2 ∘ h.2.2⟩

theorem removeRecord_retires (s : State) (i : Nat) : Retires s (removeRecord i s) := by
  refine ⟨List.length_set, rfl, fun h => ?_⟩
  have hkept : (removeRecord i s).table.suppressed = if i = 0 then ⟨0, 0, 0, 0⟩ else s.table.suppressed := rfl
  rw [hkept, h, ite_self]

/-- The state that RETIRE DORMANT leaves before it serves the waiting list. -/
def retiredState (s : State) : State :=
  setFlag .condition (((dormantSlots s.table).foldl (fun s i => removeRecord i s) s).onTable fun t =>
    { t with raisedSinceClear := 0, lastClear := s.clock.station })

theorem retiredState_blind : PortBlind retiredState := fun m ph s => by
  have hfold := portBlind_foldl (fun s i => removeRecord i s) (fun i m ph s => rfl) (dormantSlots s.table) m ph s
  exact congrArg (fun u => setFlag .condition (u.onTable fun t =>
    { t with raisedSinceClear := 0, lastClear := s.clock.station })) hfold

theorem dormant_count (s : State) : (dormantSlots s.table).length =
    (List.range 48).countP fun i => (s.table.slot i).record.any fun r => r.state = .dormant := by
  have hsame : (fun i => (s.table.slot i).dormantOrder?.isSome) =
      fun i => (s.table.slot i).record.any fun r => r.state = .dormant := by
    funext i
    unfold Slot.dormantOrder?
    cases (s.table.slot i).record with
    | none => rfl
    | some r =>
      dsimp only [Option.any_some]
      split <;> simp_all
  unfold dormantSlots
  rw [← List.countP_eq_length_filter, hsame]

theorem exec_retireDormant_reply {s : State} (h : s.portIdle) : exec .retireDormant s =
    .next (conclude ((serve (retiredState s)).answered
      [0, byte ((List.range 48).countP fun i => (s.table.slot i).record.any fun r => r.state = .dormant)])) := by
  rw [exec_retireDormant h, ← dormant_count]
  exact congrArg (fun u => Outcome.next (conclude u)) ((retiredState_blind.comp serve_blind).reply _ _ 0x37 [] s)

theorem mem_dormantSlots {s : State} {i : Nat} : i ∈ dormantSlots s.table ↔
    i < 48 ∧ ∃ r, (s.table.slot i).record = some r ∧ r.state = .dormant := by
  unfold dormantSlots
  rw [List.mem_filter, List.mem_range, Option.isSome_iff_exists]
  refine and_congr_right fun _ => ⟨fun ⟨o, ho⟩ => ?_, fun ⟨r, hr, hd⟩ => ?_⟩
  · obtain ⟨r, hr, hd, -⟩ := dormantOrder?_eq_some.mp ho
    exact ⟨r, hr, hd⟩
  · exact ⟨_, dormantOrder?_eq_some.mpr ⟨r, hr, hd, rfl⟩⟩

/-- The retirements of RETIRE DORMANT, slot by slot. -/
theorem retired_slot (s : State) (i : Nat) :
    (i ∉ dormantSlots s.table → (retiredState s).table.slot i = s.table.slot i) ∧
    (i ∈ dormantSlots s.table → TableOk s.table → ∃ o, (retiredState s).table.slot i =
      ⟨(s.table.slot i).gen, none, some o⟩ ∧ (i = 0 → (retiredState s).table.suppressed = ⟨0, 0, 0, 0⟩)) := by
  obtain ⟨hout, hin⟩ := foldl_ownSlot (R := Retires) (fun _ => ⟨rfl, rfl, id⟩) Retires.trans removeRecord_retires
    (fun s i j hj => removeRecord_slot_ne hj s) (l := dormantSlots s.table) (List.nodup_range.filter _) s i
  refine ⟨hout, fun hi hok => ?_⟩
  obtain ⟨u, ⟨hlength, -, -⟩, hsame, hrest, hend⟩ := hin hi
  have hlt : i < u.table.slots.length := by
    rw [hlength, hok.1]
    exact (mem_dormantSlots.mp hi).1
  refine ⟨nextOrder u.table.changeOrder, ?_, fun h0 => hrest.2.2 (if_pos h0)⟩
  refine hend.trans ((removeRecord_slot hlt).trans ?_)
  rw [hsame]

/-- Settles O37: RETIRE DORMANT is a fold of retirements that each move their own slot; ACKNOWLEDGE ALL a fold of
acknowledgements whose notices only return records of latched kinds. -/
theorem tableWideCommands : Obligations.TableWideCommands := by
  refine ⟨fun s hs => ?_, fun s sev cls sh hs => ⟨fun hout => ?_, fun v hv c hc hsh => ?_⟩, fun s v c all => ?_⟩
  · have hfold : Retires s ((dormantSlots s.table).foldl (fun s i => removeRecord i s) s) :=
      foldl_frame Retires (fun _ => ⟨rfl, rfl, id⟩) Retires.trans _ removeRecord_retires _ s
    refine ⟨retiredState s, exec_retireDormant_reply hs, rfl, rfl, rfl, hfold.2.1, fun i hi hok => ⟨fun hno => ?_, ?_⟩⟩
    · refine (retired_slot s i).1 fun hmem => ?_
      obtain ⟨-, r, hr, hd⟩ := mem_dormantSlots.mp hmem
      exact hno r hr hd
    · exact fun r hr hd => (retired_slot s i).2 (mem_dormantSlots.mpr ⟨hi, r, hr, hd⟩) hok
  · rw [exec_acknowledgeAll hs, cmdAckAll_out hout]
    exact congrArg Outcome.next (PortBlind.reply (f := id) (fun _ _ _ => rfl) _ _ _ _ s)
  · rw [exec_acknowledgeAll hs]
    refine congrArg Outcome.next ?_
    unfold cmdAckAll
    rw [hv, hc]
    exact if_pos hsh
  · intro met n t
    have hcount : (ackSet v c all s.table).length = n := ackSet_count fun r => decide_eq_true_iff
    refine ⟨fun h0 => ?_, fun h0 => ?_, fun hw i hi r hr => ⟨ackAll_met hw hi hr, ackAll_unmet hw hr⟩⟩
    · rw [takeAckAll_eq]
      exact if_pos (List.eq_nil_of_length_eq_zero (hcount.trans h0))
    · have hne : ackSet v c all s.table ≠ [] := fun e => h0 (hcount.symm.trans (by rw [e]; rfl))
      rw [takeAckAll_eq, if_neg hne, hcount, ← takeAckAll_state]

end Sys2Proof.Machine
end


section
/-!
SUPPORT. READ CONDITIONS and its stream (O42).
-/

namespace Sys2Proof.Machine

open Host (Outcome)

theorem matches_iff {st : Stream} {r : Record} : st.matches r = true ↔ st.states.testBit r.state.code = true ∧
    st.severity.code ≤ r.severity.code ∧ (st.cls = none ∨ st.cls = some r.key.kind.cls) ∧
    (st.shelved = true ∨ r.shelved = false) := by
  unfold Stream.matches Severity.atLeast
  simp only [Bool.and_eq_true, Bool.or_eq_true, decide_eq_true_eq, Option.isNone_iff_eq_none, Bool.not_eq_true', and_assoc]

/-- A slot that the stream finds: one not before its next, with a record that matches. -/
def Stream.Hits (st : Stream) (t : Table) (j : Nat) : Prop :=
  st.nextSlot ≤ j ∧ j < 48 ∧ ∃ r, (t.slot j).record = some r ∧ st.matches r = true

theorem hits_iff {st : Stream} {t : Table} {j : Nat} (hj : j < 48) :
    (decide (st.nextSlot ≤ j) && (t.slot j).record.any st.matches) = true ↔ st.Hits t j := by
  unfold Stream.Hits
  rw [Bool.and_eq_true, decide_eq_true_eq]
  refine and_congr_right fun _ => ?_
  rw [Option.any_eq_true]
  exact ⟨fun h => ⟨hj, h⟩, fun h => h.2⟩

theorem next?_none {st : Stream} {t : Table} (h : ∀ j, ¬st.Hits t j) : st.next? t = none := by
  refine List.find?_eq_none.mpr fun j hj hhit => ?_
  exact h j ((hits_iff (List.mem_range.mp hj)).mp hhit)

theorem next?_first {st : Stream} {t : Table} {i : Nat} (h : st.Hits t i) (hfirst : ∀ j, st.Hits t j → i ≤ j) :
    st.next? t = some i := by
  refine List.find?_range_eq_some.mpr ⟨(hits_iff h.2.1).mpr h, List.mem_range.mpr h.2.1, fun j hj => ?_⟩
  rw [Bool.not_eq_true']
  refine Bool.eq_false_iff.mpr fun hhit => ?_
  exact absurd (hfirst j ((hits_iff (Nat.lt_trans hj h.2.1)).mp hhit)) (by omega)

theorem image_record {t : Table} {i : Nat} {r : Record} (h : (t.slot i).record = some r) :
    t.image i = recordImage i (t.slot i).gen r := by
  unfold Table.image
  rw [h]

theorem cmdReadConditions_out {st mx sev sts sh cl : Nat} (h : 47 < st ∨ 48 < mx ∨ 3 < sev ∨ sts = 0 ∨ 15 < sts ∨ 1 < sh ∨
    (8 < cl ∧ cl ≠ 255)) (s : State) : cmdReadConditions st mx sev sts sh cl s = reply .outOfRange [] s := by
  unfold cmdReadConditions
  split
  next v c hv hc =>
    have hsev := severityOf?_le hv
    have hcls := classFilter?_le hc
    refine if_neg ?_
    simp only [Bool.and_eq_true, decide_eq_true_eq]
    omega
  next => rfl

theorem cmdReadConditions_in {st mx sev sts sh cl : Nat} {v : Severity} {c : Option SourceClass} (hv : severityOf? sev = some v)
    (hc : classFilter? cl = some c) (h : ¬(47 < st ∨ 48 < mx ∨ 3 < sev ∨ sts = 0 ∨ 15 < sts ∨ 1 < sh ∨
    (8 < cl ∧ cl ≠ 255))) (s : State) :
    cmdReadConditions st mx sev sts sh cl s = seekRecord ⟨mx, v, sts, sh = 1, c, st, st, [], 0⟩ s := by
  unfold cmdReadConditions
  rw [hv, hc]
  refine if_pos ?_
  simp only [Bool.and_eq_true, decide_eq_true_eq]
  omega

theorem seekRecord_some {st : Stream} {s : State} {i : Nat} (h : st.next? s.table = some i) : seekRecord st s =
    offerStream { st with nextSlot := i + 1, slot := i, left := s.table.image i } s := by
  unfold seekRecord
  rw [h]

theorem seekRecord_none {st : Stream} {s : State} (h : st.next? s.table = none) :
    seekRecord st s = endStream .done st.delivered 255 s := by
  unfold seekRecord
  rw [h]

/-- A read in STREAMING takes the byte offered. -/
theorem exec_streaming {s : State} {st : Stream} (hp : s.port.phase = .streaming st) (hline : s.port.resetLine = false)
    (tc : Bool) : exec (.dataRead tc) s = .next (takeStreamByte tc st (give (st.left.headD 0) s)) := by
  refine congrArg Outcome.next ?_
  unfold readData
  rw [hline, hp]
  rfl

theorem takeStreamByte_inside {st : Stream} {b c : Byte} {rest : List Byte} (h : st.left = b :: c :: rest) (tc : Bool)
    (s : State) : takeStreamByte tc st s =
      if tc then endStream .terminated st.delivered st.slot s else offerStream { st with left := c :: rest } s := by
  unfold takeStreamByte
  rw [h]

theorem takeStreamByte_last {st : Stream} {b : Byte} (h : st.left = [b]) (tc : Bool) (s : State) :
    takeStreamByte tc st s = afterRecord tc { st with left := [], delivered := st.delivered + 1 } s := by
  unfold takeStreamByte
  rw [h]

theorem afterRecord_full {st : Stream} (h0 : st.maximum ≠ 0) (h : st.maximum ≤ st.delivered) (s : State) :
    afterRecord false st s = endStream .done st.delivered ((st.next? s.table).getD 255) s := by
  have hfull : (st.maximum ≠ 0 && st.maximum ≤ st.delivered) = true := by simp [h0, h]
  exact if_pos hfull

theorem afterRecord_more {st : Stream} (h : st.maximum = 0 ∨ st.delivered < st.maximum) (s : State) :
    afterRecord false st s = seekRecord st s := by
  refine if_neg fun hfull => ?_
  rw [Bool.and_eq_true, decide_eq_true_eq, decide_eq_true_eq] at hfull
  omega

/-- A record's image, its fields in their order. -/
theorem recordImage_layout (i g : Nat) (r : Record) : recordImage i g r =
    [byte (20 + r.extra.length), byte i, byte g, byte r.key.kind.cls.code, byte r.key.number, byte r.key.kind.code,
      byte (16 * r.severity.code + r.state.code)] ++
    bytes2 ((r.shelf.getD 0 + 5999) / 6000 + (if r.key.kind.latched then 512 else 0) + (if r.shelved then 1024 else 0) +
      2048 * r.ackBy.code) ++
    [byte r.raiseCount] ++ bytes4 r.firstRaised.secs ++ [byte r.firstRaised.ticks] ++
    bytes4 r.lastChange.secs ++ [byte r.lastChange.ticks] ++ r.extra := by
  have hbit : ∀ (n : Nat) (b : Bool), n * bit b = if b then n else 0 := fun n b => by cases b <;> simp [bit]
  have hceil : ∀ n : Nat, n + 6000 - 1 = n + 5999 := fun n => Nat.add_sub_assoc (by decide) n
  simp only [recordImage, stampBytes, remaining, ceilDiv, hbit, hceil, List.append_assoc]

/-- Settles O42: the command seeks the first slot that matches; a read takes the byte offered, and the last byte of an
image its record. -/
theorem recordStream : Obligations.RecordStream := by
  refine ⟨fun s st mx sev sts sh cl hs => ?_, fun s st hp hline => ?_, fun i g r =>
    ⟨recordImage_layout i g r, ?_, rfl, rfl, rfl⟩⟩
  · intro bad
    refine ⟨fun hbad => ?_, fun v c hv hc hbad => ?_⟩
    · rw [exec_readConditions hs, cmdReadConditions_out hbad]
      exact congrArg Outcome.next (PortBlind.reply (f := id) (fun _ _ _ => rfl) _ _ _ _ s)
    · intro hit
      have hhits : ∀ j, Stream.Hits ⟨mx.toNat, v, sts.toNat, sh.toNat = 1, c, st.toNat, st.toNat, [], 0⟩ s.table j ↔
          hit j := by
        intro j
        unfold Stream.Hits
        simp only [matches_iff, decide_eq_true_eq]
        rfl
      rw [exec_readConditions hs, cmdReadConditions_in hv hc hbad]
      refine ⟨fun i r hi hfirst hr => ?_, fun hno => ?_⟩
      · have hnext := next?_first ((hhits i).mpr hi) fun j hj => hfirst j ((hhits j).mp hj)
        rw [seekRecord_some (s := s.taken 0x30 _) hnext, ← image_record hr]
        rfl
      · have hnext := next?_none fun j hj => hno j ((hhits j).mp hj)
        rw [seekRecord_none (s := s.taken 0x30 _) hnext]
        rfl
  · intro ends gave
    refine ⟨fun b c rest hleft => ?_, fun b hleft => ?_, fun hw => ?_⟩
    · rw [exec_streaming hp hline, exec_streaming hp hline, takeStreamByte_inside hleft, takeStreamByte_inside hleft, hleft]
      exact ⟨rfl, rfl⟩
    · rw [exec_streaming hp hline, exec_streaming hp hline, takeStreamByte_last hleft, takeStreamByte_last hleft, hleft,
        List.headD_cons]
      let after : Stream := { st with left := [], delivered := st.delivered + 1 }
      refine ⟨rfl, fun h0 hmax => ?_, fun hmore => ⟨fun hnone => ?_, fun i hi => ?_⟩⟩
      · rw [afterRecord_full (st := after) h0 hmax]
        rfl
      · rw [afterRecord_more (st := after) hmore, seekRecord_none (st := after) (s := give b s) hnone]
        rfl
      · rw [afterRecord_more (st := after) hmore, seekRecord_some (st := after) (s := give b s) hi]
        rfl
    · refine congrArg Outcome.next ?_
      have hdue : timerDue s.port.window = true := by
        rw [hw]
        rfl
      rw [if_pos hdue]
      unfold windowExpires
      rw [hp]
      rfl
  · rw [recordImage_layout]
    simp only [List.length_append, List.length_cons, List.length_nil, bytes2, bytes4]

end Sys2Proof.Machine
end


section
/-!
SUPPORT. The commands that read, and the layout of the images of section 12.3 (O45).
-/

namespace Sys2Proof.Machine

open Host (Outcome)

/-! A byte of flags, flag by flag -/

/-- The value of a flag at a place of a byte. -/
def flagged (n : Nat) (v : Bool) : Nat := if v then 2 ^ n else 0

/-- The values of some flags, the first at a place. -/
def flagSum : Nat → List Bool → Nat
  | _, [] => 0
  | n, b :: bs => flagged n b + flagSum (n + 1) bs

theorem flagSum_eq (n : Nat) (bs : List Bool) : flagSum n bs = 2 ^ n * bits bs := by
  induction bs generalizing n with
  | nil => rfl
  | cons b bs ih =>
    have hbits : bits (b :: bs) = bit b + 2 * bits bs := rfl
    rw [flagSum, ih, hbits, Nat.pow_succ]
    rw [Nat.mul_add, Nat.mul_assoc]
    refine congrArg (· + 2 ^ n * (2 * bits bs)) ?_
    cases b
    · rfl
    · exact (Nat.mul_one _).symm

theorem bits_eq (bs : List Bool) : bits bs = flagSum 0 bs := by rw [flagSum_eq, Nat.pow_zero, Nat.one_mul]

theorem bits_pair (a b : Bool) : bits [a, b] = flagged 0 a + flagged 1 b := by
  rw [bits_eq]
  rfl

theorem bits_four (a b c d : Bool) : bits [a, b, c, d] = flagged 0 a + flagged 1 b + flagged 2 c + flagged 3 d := by
  simp only [bits_eq, flagSum, Nat.add_assoc, Nat.reduceAdd, Nat.add_zero]

theorem bits_five (a b c d e : Bool) :
    bits [a, b, c, d, e] = flagged 0 a + flagged 1 b + flagged 2 c + flagged 3 d + flagged 4 e := by
  simp only [bits_eq, flagSum, Nat.add_assoc, Nat.reduceAdd, Nat.add_zero]

theorem bits_six (a b c d e f : Bool) : bits [a, b, c, d, e, f] =
    flagged 0 a + flagged 1 b + flagged 2 c + flagged 3 d + flagged 4 e + flagged 5 f := by
  simp only [bits_eq, flagSum, Nat.add_assoc, Nat.reduceAdd, Nat.add_zero]

theorem bits_seven (a b c d e f g : Bool) : bits [a, b, c, d, e, f, g] =
    flagged 0 a + flagged 1 b + flagged 2 c + flagged 3 d + flagged 4 e + flagged 5 f + flagged 6 g := by
  simp only [bits_eq, flagSum, Nat.add_assoc, Nat.reduceAdd, Nat.add_zero]

theorem bits_eight (a b c d e f g h : Bool) : bits [a, b, c, d, e, f, g, h] =
    flagged 0 a + flagged 1 b + flagged 2 c + flagged 3 d + flagged 4 e + flagged 5 f + flagged 6 g + flagged 7 h := by
  simp only [bits_eq, flagSum, Nat.add_assoc, Nat.reduceAdd, Nat.add_zero]

theorem byte_bit (b : Bool) : byte (bit b) = if b then 1 else 0 := by cases b <;> rfl

/-! The answers -/

/-- A command that only reads answers on the state in which it found the port. -/
theorem reply_taken (c : ReplyCode) (bs : List Byte) (code : Byte) (ps : List Byte) (s : State) :
    reply c bs (s.taken code ps) = s.answered (byte c.code :: bs) :=
  PortBlind.reply (f := id) (fun _ _ _ => rfl) c bs code ps s

theorem cmdReadPump_num (p : Ix6) (s : State) : cmdReadPump p.num s = reply .done (pumpImage p s) s := by
  unfold cmdReadPump
  rw [six?_num]

theorem cmdReadPump_none {b : Nat} (h : ∀ p : Ix6, b ≠ p.num) (s : State) : cmdReadPump b s = reply .outOfRange [] s := by
  unfold cmdReadPump
  rw [six?_none h]

theorem cmdReadScreen_num (n : Ix2) (s : State) : cmdReadScreen n.num s = reply .done (screenImage n s) s := by
  unfold cmdReadScreen
  rw [two?_num]

theorem cmdReadScreen_none {b : Nat} (h : ∀ n : Ix2, b ≠ n.num) (s : State) :
    cmdReadScreen b s = reply .outOfRange [] s := by
  unfold cmdReadScreen
  rw [two?_none h]

theorem cmdReadSettings_field {c k : Nat} (h : (fieldRange? c k).isSome) (s : State) :
    cmdReadSettings 0 c k s = reply .done (bytes4 (s.store.running.get c k)) s ∧
    cmdReadSettings 1 c k s = reply .done (bytes4 (s.store.staging.get c k)) s := by
  obtain ⟨r, hr⟩ := Option.isSome_iff_exists.mp h
  unfold cmdReadSettings
  rw [hr]
  exact ⟨rfl, rfl⟩

theorem cmdReadSettings_out {w c k : Nat} (h : 1 < w ∨ fieldRange? c k = none) (s : State) :
    cmdReadSettings w c k s = reply .outOfRange [] s := by
  unfold cmdReadSettings
  split
  next hr =>
    obtain h | h := h
    · omega
    · cases h.symm.trans hr
  next hr =>
    obtain h | h := h
    · omega
    · cases h.symm.trans hr
  next => rfl

theorem cmdFind_out {c n k : Nat} (h : key? c n k = none) (s : State) : cmdFind c n k s = reply .outOfRange [] s := by
  unfold cmdFind lookKey
  rw [h]
  rfl

theorem cmdFind_seated {c n k i : Nat} {q : Key} {s : State} (h : key? c n k = some q) (hi : s.table.seatedAt? q = some i) :
    cmdFind c n k s = reply .done (s.table.image i) s := by
  unfold cmdFind lookKey
  rw [h]
  dsimp only
  rw [hi]

theorem cmdFind_unseated {c n k : Nat} {q : Key} {s : State} (h : key? c n k = some q) (hi : s.table.seatedAt? q = none)
    {w : Option Nat} (hw : s.table.waitsAt? q = w) :
    cmdFind c n k s = reply .notFound [byte (w.map (· + 1) |>.getD 0)] s := by
  unfold cmdFind lookKey
  rw [h]
  dsimp only
  rw [hi, hw]

/-! The images (section 12.3) -/

theorem tallyImage_layout (t : Tally) : tallyImage t = bytes4 t.volume ++ bytes4 t.seconds ++ bytes2 t.episodes ++
    bytes2 t.peak ++ [if t.incomplete then 1 else 0] := by
  rw [tallyImage, byte_bit]

theorem pumpImage_layout (p : Ix6) (s : State) : pumpImage p s = [byte p.num, byte (s.pump p).selector.code,
    byte (s.pump p).seq.code, byte (flagged 0 (s.pump p).locks.thermal + flagged 1 (s.pump p).locks.trip +
      flagged 2 (s.pump p).locks.failStart + flagged 3 (s.pump p).locks.panelInhibit +
      flagged 4 (s.pump p).locks.townInhibit), byte (s.running.pumpUnits p),
    byte (flagged 0 (s.pump p).headLimited + flagged 1 (s.pump p).headBlocked + flagged 2 (s.pump p).startsLimited +
      flagged 3 (s.pump p).called), byte (s.pump p).history.length] ++
    bytes2 (oldestAge s.clock.uptime (s.pump p).history) ++ [byte (s.duty.ladder.findIdx (fun x => x = p) + 1)] ++
    bytes4 (s.pump p).runSeconds ++ bytes4 (s.pump p).starts ++ bytes2 (s.pump p).flow := by
  rw [pumpImage, PumpLocks.code, bits_four, bits_five]
  rfl

theorem oldestAge_cons (now a : Stamp) (rest : List Stamp) : oldestAge now (a :: rest) = ticksSince now a / 100 ∨
    (ticksSince now a % 100 ≠ 0 ∧ oldestAge now (a :: rest) = ticksSince now a / 100 + 1) := by
  unfold oldestAge
  dsimp only
  split
  next h =>
    rw [Bool.and_eq_true, decide_eq_true_eq] at h
    exact .inr ⟨h.1, rfl⟩
  next => exact .inl rfl

theorem tenths_some (a : Nat) : tenths (some a) = a / 10 ∨ (a % 10 ≠ 0 ∧ tenths (some a) = a / 10 + 1) := by
  unfold tenths
  dsimp only [Option.getD_some]
  split
  next h =>
    rw [Bool.and_eq_true, decide_eq_true_eq] at h
    exact .inr ⟨h.1, rfl⟩
  next => exact .inl rfl

/-- The image of a screen, given how its operation, its saved stage and its completion record are shown. -/
theorem screenImage_layout {n : Ix2} {s : State} {op completion : List Byte} {saved : Byte}
    (hop : (s.screen n).op.image = op) (hsaved : byte (((s.screen n).saved.map RakeState.code).getD 255) = saved)
    (hcompletion : completionShown (s.screen n).completion = completion) :
    screenImage n s = [byte n.num, byte (s.screen n).rake.code, byte (flagged 0 (s.screen n).blocked +
      flagged 1 (s.screen n).homed + flagged 2 (s.screen n).pending + flagged 3 (s.screen n).diffStale)] ++
    bytes2 (s.screen n).differential ++ bytes2 (s.screen n).position ++ op ++
    [saved, byte (flagged 0 (decide ((s.screen n).leg = .up)) + flagged 1 (decide ((s.screen n).interrupted = .up)))] ++
    bytes2 (s.screen n).upCount ++ [byte (s.screen n).retries, byte (s.screen n).cycles,
      byte (flagged 0 (s.screen n).locks.jam + flagged 1 (s.screen n).locks.overload + flagged 2 (s.screen n).locks.travel +
        flagged 4 (s.screen n).acks.jam + flagged 5 (s.screen n).acks.overload + flagged 6 (s.screen n).acks.travel)] ++
    bytes4 (s.screen n).lastCycleEnd ++ bytes2 (tenths (s.screen n).jamTimer) ++ bytes2 (tenths (s.screen n).dwell) ++
    bytes2 (tenths (s.screen n).reverse) ++ completion := by
  have hlocks : (s.screen n).locksCode = flagged 0 (s.screen n).locks.jam + flagged 1 (s.screen n).locks.overload +
      flagged 2 (s.screen n).locks.travel + flagged 4 (s.screen n).acks.jam + flagged 5 (s.screen n).acks.overload +
      flagged 6 (s.screen n).acks.travel := bits_seven ..
  rw [screenImage, bits_four, bits_pair, hlocks, hop, hsaved, hcompletion]

theorem operation_image_length (o : Operation) : o.image.length = 4 := by cases o <;> rfl

theorem completionShown_length (c : Option Completion) : (completionShown c).length = 11 := by cases c <;> rfl

theorem screenImage_length (n : Ix2) (s : State) : (screenImage n s).length = 39 := by
  simp only [screenImage, List.length_append, List.length_cons, List.length_nil, bytes2, bytes4, operation_image_length,
    completionShown_length]

theorem summaryTime_layout (s : State) : summaryTime s = bytes4 s.clock.uptime.secs ++ [byte s.clock.uptime.ticks] ++
    bytes4 s.clock.station.secs ++ [byte s.clock.station.ticks, byte (flagged 0 s.clock.set +
      flagged 1 (decide (s.level.mode = .float)) + flagged 2 s.shown.low + flagged 3 s.shown.high +
      flagged 4 s.shown.highHigh + flagged 5 s.balance.volume.isNone + flagged 6 s.balance.aboveTable +
      flagged 7 s.balance.headStale)] := by
  rw [summaryTime, bits_eight]
  simp only [stampBytes, List.append_assoc, List.cons_append, List.nil_append]

theorem sumFlow_eq (s : State) : sumFlow s = (s.pump .i1).flow + (s.pump .i2).flow + (s.pump .i3).flow + (s.pump .i4).flow +
    (s.pump .i5).flow + (s.pump .i6).flow := by
  simp only [sumFlow, Six.toList, List.map_cons, List.map_nil, List.sum_cons, List.sum_nil, Nat.add_zero, Nat.add_assoc]
  rfl

theorem summaryBalance_layout (s : State) : summaryBalance s = bytes2 (s.level.wellLevel.getD 65535) ++
    bytes4 (s.balance.volume.getD 0) ++ bytes2 s.balance.head ++ bytes2 ((s.pump .i1).flow + (s.pump .i2).flow +
      (s.pump .i3).flow + (s.pump .i4).flow + (s.pump .i5).flow + (s.pump .i6).flow) ++ bytes2 s.balance.inflow ++
    [byte (s.balance.cls.code + flagged 7 s.balance.inflowStale)] ++
    bytes2 (s.balance.weirs.get .i1).flow ++ [byte (s.balance.weirs.get .i1).status.code, byte (s.shown.spills.get .i1).code] ++
    bytes2 (s.balance.weirs.get .i2).flow ++
    [byte (s.balance.weirs.get .i2).status.code, byte (s.shown.spills.get .i2).code] := by
  have hstale : 128 * bit s.balance.inflowStale = flagged 7 s.balance.inflowStale := by
    cases s.balance.inflowStale <;> rfl
  rw [summaryBalance, sumFlow_eq, hstale]
  simp only [weirImage, List.append_assoc]
  rfl

theorem summaryDuty_layout (d : Shown) : summaryDuty d = [byte d.wanted] ++ d.ladder.map (fun p => byte p.num) ++
    [byte (flagged 0 (d.called.get .i1) + flagged 1 (d.called.get .i2) + flagged 2 (d.called.get .i3) +
      flagged 3 (d.called.get .i4) + flagged 4 (d.called.get .i5) + flagged 5 (d.called.get .i6) +
      flagged 6 d.rotationFixed + flagged 7 d.drawdownActive)] ++ bytes2 d.drawdown ++ bytes2 d.drawdownMinutes :=
  congrArg (fun k => [byte d.wanted] ++ d.ladder.map (fun p => byte p.num) ++ [byte k] ++ bytes2 d.drawdown ++
    bytes2 d.drawdownMinutes) (bits_eight ..)

theorem gateOpen_eq (s : State) : gateOpen s = Ix6.all.all fun p => decide ((s.pump p).seq ≠ .starting) := rfl

/-- The power in the summary, given the bytes of the claimants in the queue. -/
theorem summaryPower_layout {s : State} {queue : List Byte} (h : s.power.queue.map (fun c => byte c.code) = queue) :
    summaryPower s = [byte s.power.source.code, byte (flagged 0 s.power.transferring + flagged 1 s.power.ack +
      flagged 2 (Ix6.all.all fun p => decide ((s.pump p).seq ≠ .starting)) + flagged 3 s.ann.horn +
      flagged 4 s.ann.silence + flagged 5 s.ann.beacon + flagged 6 s.ann.relay), byte (budget s), byte (externalLoad s),
      byte (budget s - externalLoad s), byte (claimSum s), byte (free s).toNat] ++
    [byte ((s.pump .i1).claim.getD 0), byte ((s.pump .i2).claim.getD 0), byte ((s.pump .i3).claim.getD 0),
      byte ((s.pump .i4).claim.getD 0), byte ((s.pump .i5).claim.getD 0), byte ((s.pump .i6).claim.getD 0),
      byte ((s.screen .i1).claim.getD 0), byte ((s.screen .i2).claim.getD 0)] ++ queue ++
    List.replicate (8 - s.power.queue.length) 0 ++ [byte ((s.power.stagger.getD 0 + 99) / 100),
      byte (flagged 0 (s.pump .i1).shedMark + flagged 1 (s.pump .i2).shedMark + flagged 2 (s.pump .i3).shedMark +
        flagged 3 (s.pump .i4).shedMark + flagged 4 (s.pump .i5).shedMark + flagged 5 (s.pump .i6).shedMark +
        flagged 6 (s.screen .i1).shedMark + flagged 7 (s.screen .i2).shedMark)] := by
  have hmarks : bits (s.pumps.toList.map Pump.shedMark ++ s.screens.toList.map Screen.shedMark) = _ := bits_eight ..
  rw [summaryPower, bits_seven, hmarks, queueImage, h, gateOpen_eq]
  simp only [List.append_assoc]
  rfl

theorem summaryRest_layout (s : State) : summaryRest s =
    ([byte (s.screen .i1).rake.code] ++ bytes2 (s.screen .i1).differential) ++
    ([byte (s.screen .i2).rake.code] ++ bytes2 (s.screen .i2).differential) ++
    [byte (flagged 0 (s.screen .i1).blocked + flagged 1 (s.screen .i1).diffStale + flagged 2 (s.screen .i2).blocked +
      flagged 3 (s.screen .i2).diffStale), lampByte s.ann.lamps 0, lampByte s.ann.lamps 4, lampByte s.ann.lamps 8,
      lampByte s.ann.lamps 12, byte s.table.seatedCount] ++ bytes4 s.table.raisedSinceClear ++
    bytes4 s.table.lastClear.secs ++ [byte s.table.lastClear.ticks, byte s.link.state.code,
      byte (flagged 0 s.port.flags.condition + flagged 1 s.port.flags.screen + flagged 2 s.port.flags.power +
        flagged 3 s.port.flags.link + flagged 4 s.port.flags.settings + flagged 5 s.port.flags.balance)] := by
  rw [summaryRest, bits_four, Attention.code, bits_six]
  rfl

theorem summaryImage_length {s : State} (hl : s.shown.ladder.length = 6) (hq : s.power.queue.length ≤ 8) :
    (summaryImage s).length = 92 := by
  have hqueue : s.power.queue.length + (8 - s.power.queue.length) = 8 := Nat.add_sub_of_le hq
  simp only [summaryImage, summaryTime, summaryBalance, summaryDuty, summaryPower, summaryRest, queueImage, stampBytes,
    weirImage, bytes2, bytes4, Six.toList, Two.toList, List.length_append, List.length_cons, List.length_nil,
    List.length_map, List.length_flatten, List.length_replicate, List.map_cons, List.map_nil, List.sum_cons, List.sum_nil,
    Nat.add_zero, Nat.zero_add, Nat.reduceAdd, hl, hqueue]

theorem channelsImage_layout (l : Level) : channelsImage l = channelImage (l.channels.get .i1) ++
    channelImage (l.channels.get .i2) ++ channelImage (l.channels.get .i3) ++ channelImage (l.channels.get .i4) ++
    channelImage (l.channels.get .i5) ++ channelImage (l.channels.get .i6) ++ bytes2 l.refRaw ++
    [byte l.refSample.code, byte l.discarded, byte l.good, byte l.rounds] := by
  simp only [channelsImage, Six.toList, List.map_cons, List.map_nil, List.flatten_cons, List.flatten_nil, List.append_assoc,
    List.append_nil]
  rfl

/-- Settles O45: each command answers on the port as it found it, and each image is laid out field by field. -/
theorem panelReads : Obligations.PanelReads := by
  refine ⟨fun s b c k hs => ⟨?_, ?_, rfl, ?_, ?_, ?_, ?_, ?_, ?_, ?_, ?_, ?_, ?_, ?_⟩, fun s p t => ?_, fun s n => ?_, fun s => ?_,
    fun s => ⟨channelsImage_layout s.level, rfl, rfl⟩⟩
  · rw [exec_readSummary hs]
    exact congrArg Outcome.next (reply_taken ..)
  · rw [exec_readChannels hs]
    exact congrArg Outcome.next (reply_taken ..)
  · rw [exec_readTallies hs]
    exact congrArg Outcome.next (reply_taken ..)
  · rw [exec_readClock hs, ← byte_bit]
    refine congrArg Outcome.next ((reply_taken ..).trans ?_)
    simp only [stampBytes, List.append_assoc, List.cons_append, List.nil_append]
    rfl
  · rw [exec_readLink hs]
    exact congrArg Outcome.next (reply_taken ..)
  · intro p hp
    rw [exec_readPump hs, hp, cmdReadPump_num]
    exact ⟨congrArg Outcome.next (reply_taken ..), rfl⟩
  · intro hp
    rw [exec_readPump hs, cmdReadPump_none hp]
    exact congrArg Outcome.next (reply_taken ..)
  · intro n hn
    rw [exec_readScreen hs, hn, cmdReadScreen_num]
    exact ⟨congrArg Outcome.next (reply_taken ..), screenImage_length n s⟩
  · intro hn
    rw [exec_readScreen hs, cmdReadScreen_none hn]
    exact congrArg Outcome.next (reply_taken ..)
  · intro hr
    rw [exec_readSettings hs, exec_readSettings hs]
    exact ⟨congrArg Outcome.next ((cmdReadSettings_field hr _).1.trans (reply_taken ..)),
      congrArg Outcome.next ((cmdReadSettings_field hr _).2.trans (reply_taken ..))⟩
  · intro hr
    rw [exec_readSettings hs, cmdReadSettings_out hr]
    exact congrArg Outcome.next (reply_taken ..)
  · intro hk
    rw [exec_findCondition hs, cmdFind_out hk]
    exact congrArg Outcome.next (reply_taken ..)
  · intro q hk
    refine ⟨fun i hi => ?_, fun hi hw => ?_, fun i hi hw => ?_⟩
    · rw [exec_findCondition hs, cmdFind_seated (s := s.taken 0x31 _) hk hi]
      exact congrArg Outcome.next (reply_taken ..)
    · rw [exec_findCondition hs, cmdFind_unseated (s := s.taken 0x31 _) hk hi hw]
      exact congrArg Outcome.next (reply_taken ..)
    · rw [exec_findCondition hs, cmdFind_unseated (s := s.taken 0x31 _) hk hi hw]
      exact congrArg Outcome.next (reply_taken ..)
  · refine ⟨tallyImage_layout t, rfl, pumpImage_layout p s, rfl, fun a rest ha => ?_, rfl, rfl⟩
    rw [ha]
    exact oldestAge_cons ..
  · refine ⟨screenImage_layout ?_ ?_ ?_, fun c hc => ?_, ⟨rfl, fun a ha => tenths_some a⟩, rfl, rfl⟩
    · cases (s.screen n).op <;> rfl
    · cases (s.screen n).saved <;> rfl
    · cases (s.screen n).completion <;> rfl
    · rw [Completion.image, byte_bit]
      simp only [Completion.tail, stampBytes, List.append_assoc, List.cons_append, List.nil_append]
  · refine ⟨?_, fun hl hq => summaryImage_length hl hq, rfl, rfl, rfl, rfl, rfl, rfl, rfl⟩
    have hcode : (fun c : Claimant => byte c.code) = fun c =>
        match c with
        | .pump p => byte p.num
        | .rake n => byte (16 + n.num) :=
      funext fun c => by cases c <;> rfl
    rw [summaryImage, summaryTime_layout, summaryBalance_layout, summaryDuty_layout,
      summaryPower_layout (congrArg (s.power.queue.map ·) hcode), summaryRest_layout]
    rfl

end Sys2Proof.Machine
end


section
/-!
SUPPORT. COMMIT SETTINGS: the relation checks, and what an applied commit does (O58).
-/

namespace Sys2Proof.Machine

open Host (Outcome)

/-! The relation checks (R194) -/

section Checks

variable (c : Settings)

theorem highCheck_eq : decide (c.highSetpoint < c.hhSetpoint) = decide (c.get 1 15 < c.get 1 16) := rfl

theorem levelChecks_eq : [1, 2, 3, 4, 5, 6, 7].map (fun i => ((2, 1 + i), decide (c.tableLevel (i - 1) < c.tableLevel i))) =
    (List.range 7).map fun i => ((2, i + 2), decide (c.get 2 (i + 1) < c.get 2 (i + 2))) := rfl

theorem volumeChecks_eq :
    [1, 2, 3, 4, 5, 6, 7].map (fun i => ((2, 9 + i), decide (c.tableVolume (i - 1) ≤ c.tableVolume i))) =
    (List.range 7).map fun i => ((2, i + 10), decide (c.get 2 (i + 9) ≤ c.get 2 (i + 10))) := rfl

theorem startChecks_eq : [2, 3, 4, 5, 6].map (fun k => ((3, k), decide (c.get 3 (k - 1) < c.get 3 k))) =
    (List.range 5).map fun k => ((3, k + 2), decide (c.get 3 (k + 1) < c.get 3 (k + 2))) := rfl

theorem stopChecks_eq : [1, 2, 3, 4, 5, 6].map (fun k => ((3, 6 + k), decide (c.get 3 (6 + k) < c.get 3 k))) =
    (List.range 6).map fun k => ((3, k + 7), decide (c.get 3 (k + 7) < c.get 3 (k + 1))) := rfl

theorem pumpChecks_eq : Ix6.all.map c.curveChecks = (List.range 6).map fun p =>
    (List.range 4).map (fun i => ((4, 18 * p + i + 3), decide (c.get 4 (18 * p + i + 2) < c.get 4 (18 * p + i + 3)))) ++
    (List.range 4).map (fun i => ((4, 18 * p + i + 8), decide (c.get 4 (18 * p + i + 8) ≤ c.get 4 (18 * p + i + 7)))) := rfl

theorem screenChecks_eq : Ix2.all.map c.screenChecks = (List.range 2).map fun n =>
    [((6, 13 * n + 8), decide (c.get 6 (13 * n + 7) < c.get 6 (13 * n + 8))),
      ((6, 13 * n + 10), decide (c.get 6 (13 * n + 10) ≤ c.get 6 (13 * n + 9))),
      ((6, 13 * n + 11), decide (c.get 6 (13 * n + 11) ≤ c.get 6 (13 * n + 10)))] := rfl

theorem lampChecks_eq : (List.range 16).map (fun i => ((7, 2 + i), lampHolds (c.lamp (i + 1)))) =
    (List.range 16).map fun i => ((7, i + 2), lampHolds (c.get 7 (i + 2))) := rfl

end Checks

theorem kindOf?_code (k : Kind) : kindOf? k.code = some k := by cases k <;> rfl

theorem classOf?_code (c : SourceClass) : classOf? c.code = some c := by cases c <;> rfl

theorem kindOf?_some {n : Nat} {k : Kind} (h : kindOf? n = some k) : k.code = n :=
  beq_iff_eq.mp (List.find?_some (p := fun k : Kind => k.code == n) h)

theorem kind_mem_all (k : Kind) : k ∈ Kind.all := by cases k <;> decide

theorem code_injective {a b : SourceClass} (h : a.code = b.code) : a = b :=
  Option.some.inj ((classOf?_code a).symm.trans ((congrArg classOf? h).trans (classOf?_code b)))

/-- The numbers of a class, by its code. -/
theorem numberFits_iff (c : SourceClass) {n : Nat} (h : n < 256) : (n = 0 ∨ c.numberFits n = true) ↔
    (n = 0 ∨ c.code = 8 ∨ ((c.code = 2 ∨ c.code = 3) ∧ n ≤ 6) ∨ ((c.code = 4 ∨ c.code = 5) ∧ n ≤ 2)) := by
  cases c <;> simp [SourceClass.numberFits, SourceClass.code] <;> omega

theorem lampHolds_one {n : Nat} (h : lampType n = 1) : lampHolds n = true ↔ ∃ c k, classOf? (lampClass n) = some c ∧
    kindOf? (lampKind n) = some k ∧ k.cls = c ∧ (lampNumber n = 0 ∨ c.numberFits (lampNumber n) = true) := by
  unfold lampHolds
  split
  next =>
    split
    next c k hc hk =>
      rw [Bool.and_eq_true, decide_eq_true_eq, Bool.or_eq_true, decide_eq_true_eq]
      refine ⟨fun ⟨hcls, hnumber⟩ => ⟨c, k, hc, hk, hcls, hnumber⟩, ?_⟩
      rintro ⟨c', k', hc', hk', hcls, hnumber⟩
      obtain rfl := Option.some.inj (hc.symm.trans hc')
      obtain rfl := Option.some.inj (hk.symm.trans hk')
      exact ⟨hcls, hnumber⟩
    next hno =>
      refine ⟨nofun, ?_⟩
      rintro ⟨c, k, hc, hk, -⟩
      exact absurd hk (hno c k hc)
  next h2 => rw [h] at h2; cases h2
  next h1 _ => exact absurd h h1

theorem lampHolds_selector {n : Nat} (h : n / 16777216 % 256 = 1) : lampHolds n = true ↔
    ∃ k ∈ Kind.all, k.code = n % 256 ∧ k.cls.code = n / 65536 % 256 ∧ (n / 256 % 256 = 0 ∨ n / 65536 % 256 = 8 ∨
      ((n / 65536 % 256 = 2 ∨ n / 65536 % 256 = 3) ∧ n / 256 % 256 ≤ 6) ∨
      ((n / 65536 % 256 = 4 ∨ n / 65536 % 256 = 5) ∧ n / 256 % 256 ≤ 2)) := by
  have hbyte : lampNumber n < 256 := Nat.mod_lt _ (by decide)
  rw [lampHolds_one h]
  constructor
  · rintro ⟨-, k, hc, hk, rfl, hnumber⟩
    have hcode : n / 65536 % 256 = k.cls.code := classOf?_some hc
    refine ⟨k, kind_mem_all k, kindOf?_some hk, hcode.symm, ?_⟩
    rw [hcode]
    exact (numberFits_iff k.cls hbyte).mp hnumber
  · rintro ⟨k, -, hk, hcode, hnumber⟩
    rw [← hcode] at hnumber
    exact ⟨k.cls, k, (congrArg classOf? hcode.symm).trans (classOf?_code _), (congrArg kindOf? hk.symm).trans (kindOf?_code k),
      rfl, (numberFits_iff k.cls hbyte).mpr hnumber⟩

theorem lampHolds_running {n : Nat} (h : lampType n = 2) :
    lampHolds n = true ↔ 1 ≤ n / 256 % 256 ∧ n / 256 % 256 ≤ 6 := by
  unfold lampHolds
  split
  next h1 => rw [h] at h1; cases h1
  next =>
    rw [Bool.and_eq_true, decide_eq_true_eq, decide_eq_true_eq]
    rfl
  next h2 => exact absurd h h2

theorem lampHolds_other {n : Nat} (h1 : n / 16777216 % 256 ≠ 1) (h2 : n / 16777216 % 256 ≠ 2) : lampHolds n = true := by
  unfold lampHolds
  split
  next h => exact absurd h h1
  next h => exact absurd h h2
  next => rfl

/-! What a commit does to the link (R191) -/

section CommitLink

variable (s : State)

theorem commitLink_offline (h : s.running.linkEnable = true) (hl : s.link.state = .offline) :
    commitLink s = setFlag .link (enterJoining s) := by
  unfold commitLink
  rw [if_pos h, hl]

theorem commitLink_joining (h : s.running.linkEnable = true) (hl : s.link.state = .joining) :
    commitLink s = if s.link.baud = s.running.linkBaud then s
      else s.onLink fun l => { l with baud := s.running.linkBaud, assembly := none, interByte := none } := by
  unfold commitLink
  rw [if_pos h, hl]

theorem commitLink_stands (h : s.running.linkEnable = true)
    (hl : s.link.state = .online ∨ s.link.state = .quiet ∨ s.link.state = .lost) : commitLink s = s := by
  unfold commitLink
  rw [if_pos h]
  obtain hl | hl | hl := hl <;> rw [hl]

theorem commitLink_stays (h : s.running.linkEnable = false) (hl : s.link.state = .offline) : commitLink s = s := by
  unfold commitLink
  rw [if_neg (by rw [h]; nofun), if_pos hl]

theorem commitLink_leaves (h : s.running.linkEnable = false) (hl : s.link.state = .joining ∨ s.link.state = .lost) :
    commitLink s = enterOffline s := by
  unfold commitLink Link.joined
  rw [if_neg (by rw [h]; nofun)]
  obtain hl | hl := hl <;> rw [hl] <;> rfl

theorem commitLink_drops (h : s.running.linkEnable = false) (hl : s.link.state = .online ∨ s.link.state = .quiet) :
    commitLink s = enterOffline (enterLost s) := by
  unfold commitLink Link.joined
  rw [if_neg (by rw [h]; nofun)]
  obtain hl | hl := hl <;> rw [hl] <;> rfl

/-- A disabled link is OFFLINE. -/
theorem commitLink_disabled (h : s.running.linkEnable = false) : (commitLink s).link.state = .offline := by
  cases hl : s.link.state with
  | offline => rw [commitLink_stays s h hl]; exact hl
  | joining => rw [commitLink_leaves s h (.inl hl)]; rfl
  | lost => rw [commitLink_leaves s h (.inr hl)]; rfl
  | online => rw [commitLink_drops s h (.inl hl)]; rfl
  | quiet => rw [commitLink_drops s h (.inr hl)]; rfl

/-- The link's move touches neither the table nor what the panel and the store hold. -/
theorem commitLink_rest : (commitLink s).table = s.table ∧ (commitLink s).store = s.store ∧
    (commitLink s).balance = s.balance ∧ (commitLink s).level = s.level ∧ (commitLink s).clock = s.clock ∧
    (commitLink s).port = { s.port with flags := (commitLink s).port.flags, attn := (commitLink s).port.attn } := by
  unfold commitLink
  split
  · split
    · exact ⟨rfl, rfl, rfl, rfl, rfl, rfl⟩
    · split <;> exact ⟨rfl, rfl, rfl, rfl, rfl, rfl⟩
    · exact ⟨rfl, rfl, rfl, rfl, rfl, rfl⟩
  · split
    · exact ⟨rfl, rfl, rfl, rfl, rfl, rfl⟩
    · split <;> exact ⟨rfl, rfl, rfl, rfl, rfl, rfl⟩

end CommitLink

theorem enterLost_frame (s : State) : enterLost s = setFlag .link { s with
    pumps := s.pumps.map fun q => { q with townMark := false, locks := { q.locks with townInhibit := false } }
    duty := { s.duty with
      drawdown := if s.duty.drawdownTimer = none then s.duty.drawdown else 0, drawdownTimer := none }
    link := { s.link with
      state := .lost, credits := 0, grant := none, period := none, requests := [], statusOwed := false
      wakesOwed := 0, heartbeatTimer := none, statusTimer := none, lossTimer := some 1000 } } :=
  congrArg (fun d : Duty => { enterLost s with duty := d }) (endDrawdown_timer s.duty)

/-! The edges of a commit (R41, R188) -/

theorem startsEdge_eq (limit : Nat) (p : Ix6) (before after : Pump) : startsEdge limit p before after =
    if after.startsLimited = before.startsLimited then []
    else [⟨.pumpStartsLimit, p.num, if after.startsLimited then some [byte limit] else none⟩] :=
  ite_of_iff eq_comm rfl rfl

theorem lostReturn_eq (l : Link) : lostReturn l = if l.lostCause then [⟨.linkLost, 0, none⟩] else [] := by
  unfold lostReturn causeEdge
  cases l.lostCause <;> rfl

theorem joined_iff (l : Link) : l.joined = true ↔ l.state = .online ∨ l.state = .quiet := by
  unfold Link.joined
  rw [Bool.or_eq_true, decide_eq_true_eq, decide_eq_true_eq]

theorem commitLinkEdges_eq (s : State) : commitLinkEdges s =
    if s.running.linkEnable = true ∨ s.link.state = .offline then []
    else (if s.link.state = .online ∨ s.link.state = .quiet then townReturns s ++ drawdownReturn s.duty else []) ++
      lostReturn s.link := by
  unfold commitLinkEdges
  exact ite_of_iff (by rw [Bool.or_eq_true, decide_eq_true_eq]) rfl
    (congrArg (· ++ lostReturn s.link) (ite_of_iff (joined_iff _) rfl rfl))

/-! The commit -/

/-- The staging set in force, its write begun. -/
def newSet (s : State) : State := s.onStore fun st => { st with running := st.staging, writing := some 25 }

/-- The blocks as a commit leaves them, but for the link. -/
def blocksTaken (s : State) : State :=
  let moved := tableMoved s.store.running s.store.staging
  let s2 := if moved then (newSet s).onBalance fun b => { b with vPrev := none } else newSet s
  clampPosition .i2 (clampPosition .i1 (trimAllHistories s2))

/-- The blocks as a commit leaves them, before its changes of records. -/
def committed (s : State) : State := commitLink (blocksTaken s)

theorem blocksTaken_rest (s : State) : (blocksTaken s).table = s.table ∧
    (blocksTaken s).store = { s.store with running := s.store.staging, writing := some 25 } ∧
    (blocksTaken s).balance = { s.balance with
      vPrev := if tableMoved s.store.running s.store.staging then none else s.balance.vPrev } ∧
    (blocksTaken s).level = s.level ∧ (blocksTaken s).clock = s.clock ∧ (blocksTaken s).port = s.port ∧
    (blocksTaken s).link = s.link := by
  unfold blocksTaken
  dsimp only
  split <;> exact ⟨rfl, rfl, rfl, rfl, rfl, rfl, rfl⟩

theorem applyCommit_eq (s : State) : applyCommit s = setFlag .settings
    (commitChanges (trimEdges (newSet s) ++ commitLinkEdges (newSet s)) (committed s)) := rfl

theorem committed_rest (s : State) : (committed s).table = s.table ∧
    (committed s).store = { s.store with running := s.store.staging, writing := some 25 } ∧
    (committed s).balance = { s.balance with
      vPrev := if tableMoved s.store.running s.store.staging then none else s.balance.vPrev } ∧
    (committed s).level = s.level ∧ (committed s).clock = s.clock ∧ (committed s).port.phase = s.port.phase ∧
    (committed s).port.protocol = s.port.protocol := by
  obtain ⟨htable, hstore, hbalance, hlevel, hclock, hport, -⟩ := blocksTaken_rest s
  obtain ⟨ktable, kstore, kbalance, klevel, kclock, kport⟩ := commitLink_rest (blocksTaken s)
  have hphase : (committed s).port.phase = (blocksTaken s).port.phase := by
    unfold committed
    rw [kport]
  have hprotocol : (committed s).port.protocol = (blocksTaken s).port.protocol := by
    unfold committed
    rw [kport]
  rw [hport] at hphase hprotocol
  exact ⟨ktable.trans htable, kstore.trans hstore, kbalance.trans hbalance, klevel.trans hlevel, kclock.trans hclock,
    hphase, hprotocol⟩

theorem committed_disabled {s : State} (h : s.store.staging.linkEnable = false) : (committed s).link.state = .offline := by
  refine commitLink_disabled _ ?_
  unfold State.running
  rw [(blocksTaken_rest s).2.1]
  exact h

theorem committed_enabled {s : State} (h : s.store.staging.linkEnable = true) (hl : s.link.state = .offline) :
    (committed s).link.state = .joining ∧ (committed s).link.baud = s.store.staging.linkBaud := by
  obtain ⟨-, hstore, -, -, -, -, hlink⟩ := blocksTaken_rest s
  have hrunning : (blocksTaken s).running = s.store.staging := congrArg Store.running hstore
  unfold committed
  rw [commitLink_offline _ (by rw [hrunning]; exact h) (by rw [hlink]; exact hl)]
  exact ⟨rfl, congrArg Settings.linkBaud hrunning⟩

/-- What the end of a commit's event leaves of the blocks, whatever changes of records it made. -/
theorem executing_stands {u v t : State} (hedges : EdgeFrame u v)
    (h : ConcludeFrame ((setFlag .settings v).onPort fun p => { p with phase := .executing }) t) :
    t.store = u.store ∧ t.port.phase = .executing ∧ t.port.protocol = u.port.protocol ∧ t.port.flags.settings = true ∧
    t.balance = u.balance ∧ t.level = u.level ∧ t.clock = u.clock ∧
    (u.link.state ≠ .quiet → t.link.state = u.link.state ∧ t.link.baud = u.link.baud) := by
  have hprotocol : t.port.protocol = v.port.protocol := by
    rw [h.port]
    rfl
  have hsent : v.port.protocol = u.port.protocol := by rw [hedges.port]
  have hphase : t.port.phase = .executing := by
    rw [h.port]
    rfl
  refine ⟨h.store.trans hedges.store, hphase, hprotocol.trans hsent, h.flags .settings rfl,
    h.balance.trans hedges.balance, h.level.trans hedges.level, h.clock.trans hedges.clock, fun hq => ?_⟩
  have hsame : v.link = u.link := hedges.still (hedges.wakes.resolve_right fun ⟨k, _⟩ => hq k)
  have hstate : t.link.state = v.link.state := h.wakes.resolve_right fun ⟨k, _⟩ => hq ((congrArg Link.state hsame).symm.trans k)
  have hbaud : t.link.baud = v.link.baud := by
    rw [h.link]
    rfl
  rw [hstate, hbaud, hsame]
  exact ⟨rfl, rfl⟩

/-- What an applied commit leaves at the end of its event. -/
theorem applied_stands {s t : State} (h : ConcludeFrame ((applyCommit s).onPort fun p => { p with phase := .executing }) t) :
    t.store = { s.store with running := s.store.staging, writing := some 25 } ∧ t.port.phase = .executing ∧
    t.port.protocol = s.port.protocol ∧ t.port.flags.settings = true ∧ t.balance = { s.balance with
      vPrev := if tableMoved s.store.running s.store.staging then none else s.balance.vPrev } ∧
    t.level = s.level ∧ t.clock = s.clock ∧ ((committed s).link.state ≠ .quiet →
      t.link.state = (committed s).link.state ∧ t.link.baud = (committed s).link.baud) := by
  obtain ⟨-, hstore, hbalance, hlevel, hclock, -, hprotocol⟩ := committed_rest s
  rw [applyCommit_eq] at h
  obtain ⟨kstore, kphase, kprotocol, kflag, kbalance, klevel, kclock, klink⟩ :=
    executing_stands (makeChanges_frame ..) h
  exact ⟨kstore.trans hstore, kphase, kprotocol.trans hprotocol, kflag, kbalance.trans hbalance, klevel.trans hlevel,
    kclock.trans hclock, klink⟩

theorem tableMoved_eq (a b : Settings) : tableMoved a b = (List.range 8).any fun i =>
    decide (a.get 2 (i + 1) ≠ b.get 2 (i + 1) ∨ a.get 2 (i + 9) ≠ b.get 2 (i + 9)) := by
  unfold tableMoved Settings.tableLevel Settings.tableVolume
  simp only [Bool.decide_or, Nat.add_comm]

theorem trimEdges_eq (s : State) : trimEdges s = (Ix6.all.map fun p =>
    if decide (s.running.startsPerHour p ≤
        ((s.pump p).history.drop ((s.pump p).history.length - s.running.startsPerHour p)).length) = (s.pump p).startsLimited
    then [] else [⟨.pumpStartsLimit, p.num, if decide (s.running.startsPerHour p ≤
        ((s.pump p).history.drop ((s.pump p).history.length - s.running.startsPerHour p)).length)
      then some [byte (s.running.startsPerHour p)] else none⟩]).flatten := by
  unfold trimEdges
  simp only [startsEdge_eq]
  rfl

theorem cmdCommit_rejected {s : State} {f : Nat × Nat} (hw : s.store.writing = none)
    (hf : s.store.staging.firstBroken? = some f) :
    cmdCommit s = reply .settingsRejected [byte f.1, byte f.2] (setFlag .settings s) := by
  unfold cmdCommit
  rw [if_neg (by rw [hw]; nofun), hf]

theorem cmdCommit_applied {s : State} (hw : s.store.writing = none) (hf : s.store.staging.firstBroken? = none) :
    cmdCommit s = conclude ((applyCommit s).onPort fun p => { p with phase := .executing }) := by
  unfold cmdCommit
  rw [if_neg (by rw [hw]; nofun), hf]

/-- Settles O58: the relations are read off list by list; the commit is its blocks' moves, its changes of records in slot
order, and the SETTINGS flag. -/
theorem commitSettings : Obligations.CommitSettings := by
  refine ⟨fun s hs => ⟨fun hw => ?_, fun f hw hf => ?_, fun hw hf => ?_⟩, fun c n => ?_, fun s => ?_, fun s n => ?_⟩
  · have hbusy : s.store.writing.isSome = true := Option.isSome_iff_ne_none.mpr hw
    rw [exec_commitSettings hs]
    exact congrArg Outcome.next (if_pos hbusy)
  · rw [exec_commitSettings hs, cmdCommit_rejected (s := s.taken 0x42 []) hw hf]
    exact congrArg Outcome.next ((setFlag_blind .settings).reply .settingsRejected _ 0x42 [] s)
  · have hexec := (exec_commitSettings hs).trans (congrArg Outcome.next (cmdCommit_applied (s := s.taken 0x42 []) hw hf))
    have hframe := conclude_frame ((applyCommit (s.taken 0x42 [])).onPort fun p => { p with phase := .executing })
    obtain ⟨hstore, hphase, hprotocol, hflag, hbalance, hlevel, hclock, hlink⟩ := applied_stands hframe
    refine ⟨hexec, _, hexec, hstore, hphase, hprotocol, hflag, hbalance, hlevel, hclock, fun hoff => ?_, fun hon hl => ?_⟩
    · have hdisabled := committed_disabled (s := s.taken 0x42 []) hoff
      exact (hlink (by rw [hdisabled]; nofun)).1.trans hdisabled
    · obtain ⟨hstate, hbaud⟩ := committed_enabled (s := s.taken 0x42 []) hon hl
      obtain ⟨kstate, kbaud⟩ := hlink (by rw [hstate]; nofun)
      exact ⟨kstate.trans hstate, kbaud.trans hbaud⟩
  · intro v pumps screens checks
    refine ⟨?_, fun htype => lampHolds_selector htype, fun htype => lampHolds_running htype,
      fun h1 h2 => lampHolds_other h1 h2⟩
    unfold Settings.firstBroken? Settings.relationChecks
    rw [levelChecks_eq, volumeChecks_eq, startChecks_eq, stopChecks_eq, pumpChecks_eq, screenChecks_eq, lampChecks_eq]
    rfl
  · intro next taken moved full starts inhibit left link edges forbidden
    have hblocks : committed s = commitLink (clampPosition .i2 (clampPosition .i1 (trimAllHistories
        (if moved then taken.onBalance fun b => { b with vPrev := none } else taken)))) := by
      unfold committed blocksTaken
      rw [tableMoved_eq]
      rfl
    have hedges : trimEdges (newSet s) ++ commitLinkEdges (newSet s) = edges := by
      rw [trimEdges_eq, six_flatten, commitLinkEdges_eq, townReturns_eq, six_flatten, drawdownReturn_eq, lostReturn_eq]
      rfl
    have hforbidden : (List.range 48).filter (forbiddenAt (committed s)) = forbidden := by
      obtain ⟨htable, hstore, -⟩ := committed_rest s
      unfold forbiddenAt State.running
      rw [htable, hstore]
    rw [applyCommit_eq, commitChanges, hedges, hforbidden, hblocks]
  · refine ⟨rfl, rfl, fun hlink => ⟨commitLink_offline s hlink, commitLink_joining s hlink, commitLink_stands s hlink⟩,
      fun hlink => ⟨commitLink_stays s hlink, commitLink_leaves s hlink, commitLink_drops s hlink⟩, rfl, enterLost_frame s, rfl⟩

end Sys2Proof.Machine
end


section
/-!
SUPPORT. CLOCK_TICK: 10 ms of uptime (O11).
-/

namespace Sys2Proof.Machine

open Host (Outcome)

/-- A pump's run tick is added while its feedback is present (R55). -/
theorem pump_tick_eq (q : Pump) : q.tick = { q with
    hand := q.hand.tick, auto := q.auto.tick, feedback := q.feedback.tick, thermal := q.thermal.tick
    sealProbe := q.sealProbe.tick, startWindow := timerTick q.startWindow, minRun := timerTick q.minRun
    stopWindow := timerTick q.stopWindow, runDown := timerTick q.runDown, headTimer := timerTick q.headTimer
    runTicks := q.runTicks + if q.feedback.state then 1 else 0 } := by
  unfold Pump.tick
  congr 1
  split <;> rfl

theorem table_tick_slot (t : Table) (i : Nat) : t.tick.slot i = (t.slot i).tick := by
  unfold Table.slot Table.tick
  rw [List.getD_eq_getElem?_getD, List.getD_eq_getElem?_getD, List.getElem?_map]
  cases t.slots[i]? <;> rfl

/-- Settles O11, block by block. -/
theorem clockTick : Obligations.ClockTick := by
  intro s
  refine ⟨tick s, rfl, ?_, rfl, ?_⟩
  · rintro a b (⟨rfl, rfl⟩ | ⟨rfl, rfl⟩) <;> rfl
  · intro less line
    refine ⟨rfl, fun w => ?_, rfl, fun p => ?_, rfl, rfl, fun n => ?_, fun i => table_tick_slot _ i, rfl, rfl, rfl, rfl, rfl,
      rfl, rfl⟩
    · exact Two.get_map ..
    · exact (Six.get_map Pump.tick s.pumps p).trans (pump_tick_eq _)
    · exact Two.get_map ..

end Sys2Proof.Machine
end


section
/-!
SUPPORT. The cold start: raises on an empty table, one after another, and the blocks they leave (O12).
-/

namespace Sys2Proof.Machine

open Host (Outcome)

/-! A table that holds the causes found present, from slot 1 up -/

/-- A cause found present at cold start: its kind, its source number and its extra data. -/
abbrev Cause := Kind × Nat × List Byte

def Cause.key (x : Cause) : Key := ⟨x.1, x.2.1⟩

/-- The slot of the cause that is raised after so many others, at uptime zero. -/
def causeSlot (i : Nat) (x : Cause) : Slot := ⟨1, some
  { key := ⟨x.1, x.2.1⟩, severity := x.1.severity, state := .raised, shelved := false, shelf := none
    ackBy := .nobody, raiseCount := 1, firstRaised := ⟨0, 0⟩, lastChange := ⟨0, 0⟩, changeOrder := i + 1
    extra := x.2.2, townCurrent := false }, none⟩

def causeTable (l : List Cause) : Table where
  slots := [⟨0, none, none⟩] ++ l.mapIdx causeSlot ++ List.replicate (47 - l.length) ⟨0, none, none⟩
  waiting := []
  raisedSinceClear := l.length
  lastClear := ⟨0, 0⟩
  changeOrder := l.length
  saturated := false
  suppressed := ⟨0, 0, 0, 0⟩

/-- A state with some causes raised on a table that held none. -/
def withCauses (l : List Cause) (u : State) : State :=
  { u with table := causeTable l, port := { u.port with flags := { u.port.flags with condition := !l.isEmpty } } }

/-- The causes are raised one after another. -/
def raiseAll (l : List Cause) (s : State) : State := l.foldl (fun s x => raiseKind x.1 x.2.1 x.2.2 s) s

/-- What a raise reads and moves besides the table, as a cold start has it. -/
structure Silent (u : State) : Prop where
  station : u.clock.station = .zero
  silence : u.ann.silence = false
  link : u.link.state ≠ .quiet
  enables : u.port.enables = .none
  attn : u.port.attn = false

section Table

variable {l : List Cause}

theorem causeTable_seated {j : Nat} (h : j < l.length) : (causeTable l).slot (j + 1) = causeSlot j l[j] := by
  have hlen : j < (l.mapIdx causeSlot).length := by rw [List.length_mapIdx]; exact h
  unfold Table.slot causeTable
  rw [List.getD_eq_getElem?_getD, List.append_assoc, List.singleton_append, List.getElem?_cons_succ,
    List.getElem?_append_left hlen, List.getElem?_mapIdx, List.getElem?_eq_getElem h]
  rfl

theorem causeTable_fresh : (causeTable l).slot (l.length + 1) = .fresh := by
  unfold Table.slot causeTable
  rw [List.getD_eq_getElem?_getD, List.append_assoc, List.singleton_append, List.getElem?_cons_succ,
    List.getElem?_append_right (Nat.le_of_eq List.length_mapIdx), List.getElem?_replicate]
  split <;> rfl

theorem causeTable_place (h : l.length < 47) : (causeTable l).place? = some (l.length + 1) := by
  refine place?_of_vacant (by omega) (by omega) (by rw [causeTable_fresh]; rfl) fun j h1 hj => ?_
  obtain ⟨i, rfl⟩ := Nat.exists_eq_add_of_le' h1
  rw [causeTable_seated (by omega)]
  nofun

theorem causeTable_unseated {k : Key} (h : k ∉ l.map Cause.key) : (causeTable l).seatedAt? k = none := by
  refine List.findIdx?_eq_none_iff.mpr fun x hx => ?_
  rw [causeTable, List.mem_append, List.mem_append, List.mem_singleton, List.mem_mapIdx, List.mem_replicate] at hx
  obtain (rfl | ⟨i, hi, rfl⟩) | ⟨-, rfl⟩ := hx
  · rfl
  · refine beq_eq_false_iff_ne.mpr fun e => h (List.mem_map.mpr ⟨l[i], List.getElem_mem hi, ?_⟩)
    exact Option.some.inj e
  · rfl

/-- The place after the causes raised so far takes the next. -/
theorem causeTable_set (h : l.length < 47) (x : Cause) :
    (causeTable l).slots.set (l.length + 1) (causeSlot l.length x) = (causeTable (l ++ [x])).slots := by
  have hrest : 47 - l.length = 47 - (l ++ [x]).length + 1 := by rw [List.length_append, List.length_singleton]; omega
  unfold causeTable
  dsimp only
  rw [hrest, List.replicate_succ, List.mapIdx_concat, List.append_assoc, List.append_assoc, List.append_assoc,
    List.singleton_append, List.set_cons_succ, List.set_append_right _ _ (Nat.le_of_eq List.length_mapIdx), List.length_mapIdx,
    Nat.sub_self, List.set_cons_zero]
  rfl

/-- The table with one more cause raised. -/
theorem causeTable_append (h : l.length < 47) (x : Cause) : causeTable (l ++ [x]) = { causeTable l with
    raisedSinceClear := saturate max32 ((causeTable l).raisedSinceClear + 1)
    changeOrder := nextOrder (causeTable l).changeOrder
    slots := (causeTable l).slots.set (l.length + 1) ⟨nextGen ((causeTable l).slot (l.length + 1)).gen, some ⟨x.key,
      x.1.severity, .raised, false, none, .nobody, 1, .zero, .zero, nextOrder (causeTable l).changeOrder, x.2.2, false⟩,
      none⟩ } := by
  have hordered : nextOrder (causeTable l).changeOrder = l.length + 1 := if_pos (by unfold causeTable; dsimp only; omega)
  have hcounted : saturate max32 ((causeTable l).raisedSinceClear + 1) = l.length + 1 :=
    Nat.min_eq_right (by unfold max32 causeTable; dsimp only; omega)
  have hlength : (l ++ [x]).length = l.length + 1 := by rw [List.length_append, List.length_singleton]
  have hslots := causeTable_set h x
  rw [hordered, hcounted, causeTable_fresh]
  refine Eq.trans ?_ (congrArg (fun sl => { causeTable l with
    raisedSinceClear := l.length + 1, changeOrder := l.length + 1, slots := sl }) hslots.symm)
  unfold causeTable
  rw [hlength]

end Table

theorem enteredRaised_silent {u : State} (hs : u.ann.silence = false) (hl : u.link.state ≠ .quiet) (r : Record) :
    enteredRaised r u = u := by
  have hann : (if r.sounds u.running then u.onAnn fun a => { a with silence := false } else u) = u := by
    split
    · exact congrArg (fun b => { u with ann := { u.ann with silence := b } }) hs.symm
    · rfl
  have hwake : wakeLink true u = u := if_neg hl
  unfold enteredRaised
  rw [hann]
  dsimp only
  rw [hwake, ite_self]

/-- No flag is enabled where no enable is on. -/
theorem meet_none (a : Attention) : (a.meet .none).some? = false := by
  simp [Attention.meet, Attention.some?, Attention.none]

/-- With no enable on, a flag sets no ATTN. -/
theorem setFlag_unenabled {u : State} (he : u.port.enables = .none) (ha : u.port.attn = false) (f : Flag) :
    setFlag f u = u.onPort fun p => { p with flags := p.flags.mark f } := by
  have hattn : ((u.port.flags.mark f).meet u.port.enables).some? = u.port.attn := by
    rw [he, ha, meet_none]
  exact congrArg (fun b => u.onPort fun p => { p with flags := p.flags.mark f, attn := b }) hattn

theorem Silent.of_table {u v : State} (hu : Silent u) (h : v = { u with table := v.table, port := v.port })
    (hp : v.port = { u.port with flags := v.port.flags }) : Silent v := by
  rw [h, hp]
  exact ⟨hu.station, hu.silence, hu.link, hu.enables, hu.attn⟩

/-- A record is seated, and nothing else moves but the CONDITION flag. -/
theorem seat_silent {u : State} (hu : Silent u) (i : Nat) (k : Key) (v : Severity) (x : List Byte) :
    seat i k v x .zero u = { u with
      table := { u.table with
        changeOrder := nextOrder u.table.changeOrder
        slots := u.table.slots.set i ⟨nextGen (u.table.slot i).gen, some ⟨k, v, .raised, false, none, .nobody, 1, .zero,
          u.clock.station, nextOrder u.table.changeOrder, x, false⟩, none⟩ }
      port := { u.port with flags := u.port.flags.mark .condition } } := by
  have hflag : ∀ g, setFlag .condition (u.onTable g) =
      (u.onTable g).onPort fun p => { p with flags := p.flags.mark .condition } :=
    fun g => setFlag_unenabled (u := u.onTable g) hu.enables hu.attn .condition
  unfold seat
  dsimp only
  rw [hflag]
  exact enteredRaised_silent (u := State.onPort _ (State.onTable _ u)) hu.silence hu.link _

theorem countRaise_silent {u : State} (hu : Silent u) : countRaise u = { u with
    table := { u.table with raisedSinceClear := saturate max32 (u.table.raisedSinceClear + 1) }
    port := { u.port with flags := u.port.flags.mark .condition } } :=
  setFlag_unenabled (u := u.onTable fun t => { t with raisedSinceClear := saturate max32 (t.raisedSinceClear + 1) })
    hu.enables hu.attn .condition

/-- A raise of a cause that the table does not hold takes the next place. -/
theorem raise_withCauses {l : List Cause} {u : State} (hu : Silent u) (hl : l.length < 47) {x : Cause}
    (hx : x.key ∉ l.map Cause.key) : raiseKind x.1 x.2.1 x.2.2 (withCauses l u) = withCauses (l ++ [x]) u := by
  have hw : Silent (withCauses l u) := hu.of_table rfl rfl
  have hc : Silent (countRaise (withCauses l u)) := by
    rw [countRaise_silent hw]
    exact ⟨hw.station, hw.silence, hw.link, hw.enables, hw.attn⟩
  have hplaced : raiseKind x.1 x.2.1 x.2.2 (withCauses l u) = seat (l.length + 1) x.key x.1.severity x.2.2
      (withCauses l u).clock.station (countRaise (withCauses l u)) :=
    raise_placed (s := withCauses l u) (causeTable_unseated hx) rfl (causeTable_place hl) _ _
  rw [hplaced, hw.station, seat_silent hc, countRaise_silent hw]
  unfold withCauses
  rw [causeTable_append hl x, ← hu.station]
  cases l <;> rfl

theorem raiseAll_withCauses {u : State} (hu : Silent u) {l' : List Cause} {l : List Cause}
    (hn : ((l ++ l').map Cause.key).Nodup) (hl : (l ++ l').length ≤ 47) :
    raiseAll l' (withCauses l u) = withCauses (l ++ l') u := by
  induction l' generalizing l with
  | nil => rw [List.append_nil]; rfl
  | cons x l' ih =>
    have hsplit : l ++ x :: l' = (l ++ [x]) ++ l' := (List.append_assoc l [x] l').symm
    have hx : x.key ∉ l.map Cause.key := by
      rw [List.map_append, List.map_cons] at hn
      intro h
      exact (List.nodup_append.mp hn).2.2 _ h _ (.head _) rfl
    have hroom : l.length < 47 := by
      rw [List.length_append, List.length_cons] at hl
      omega
    rw [hsplit] at hn hl ⊢
    rw [← ih hn hl, ← raise_withCauses hu hroom hx]
    rfl

/-! The blocks' own starts -/

/-- A cause, where it is present. -/
def causeIf (k : Kind) (n : Nat) (present : Bool) (x : List Byte) : List Cause := if present then [(k, n, x)] else []

theorem raiseAll_causeIf (k : Kind) (n : Nat) (b : Bool) (x : List Byte) (s : State) :
    raiseAll (causeIf k n b x) s = if b then raiseKind k n x s else s := by
  cases b <;> rfl

theorem raiseAll_append (l l' : List Cause) (s : State) : raiseAll (l ++ l') s = raiseAll l' (raiseAll l s) :=
  List.foldl_append

/-- The causes of a pump (R80). -/
def pumpCauses (s : State) (p : Ix6) : List Cause :=
  causeIf .pumpFailStop p.num (decide ((s.pump p).seq = .runOn)) [4] ++
  causeIf .pumpThermal p.num (s.pump p).locks.thermal [byte (s.pump p).seq.code] ++
  causeIf .pumpSeal p.num (s.pump p).sealProbe.state []

theorem raisePump_eq (s : State) (p : Ix6) : raisePump s p = raiseAll (pumpCauses s p) s := by
  unfold pumpCauses
  rw [raiseAll_append, raiseAll_append, raiseAll_causeIf, raiseAll_causeIf, raiseAll_causeIf]
  unfold raisePump
  simp only [decide_eq_true_eq]
  rfl

/-- The raises of the pumps, one pump after another. -/
theorem raisePumps_withCauses {u : State} (hu : Silent u) (ps : List Ix6) {l : List Cause}
    (hn : ((l ++ (ps.map (pumpCauses u)).flatten).map Cause.key).Nodup)
    (hl : (l ++ (ps.map (pumpCauses u)).flatten).length ≤ 47) :
    ps.foldl raisePump (withCauses l u) = withCauses (l ++ (ps.map (pumpCauses u)).flatten) u := by
  induction ps generalizing l with
  | nil => rw [List.map_nil, List.flatten_nil, List.append_nil]; rfl
  | cons p ps ih =>
    rw [List.map_cons, List.flatten_cons, ← List.append_assoc] at hn hl ⊢
    rw [List.map_append] at hn
    rw [List.length_append] at hl
    have hfirst : raisePump (withCauses l u) p = withCauses (l ++ pumpCauses u p) u :=
      (raisePump_eq ..).trans (raiseAll_withCauses (l' := pumpCauses u p) hu (List.nodup_append.mp hn).1 (by omega))
    rw [List.foldl_cons, hfirst]
    rw [← List.map_append] at hn
    rw [← List.length_append] at hl
    exact ih hn hl

/-- The causes of the source (R82). -/
def sourceCauses (s : State) : List Cause :=
  causeIf .mainsFail 0 (decide (s.power.source ≠ .mains)) s.power.lines ++
  causeIf .noPower 0 (decide (s.power.source = .none)) s.power.lines

theorem sourceEdges_cold (s : State) : (sourceEdges .mains s.power.source s.power.lines).foldl (fun s e => offerEdge e s) s =
    raiseAll (sourceCauses s) s := by
  unfold sourceCauses
  cases s.power.source <;> rfl

/-- A flag set with no enable on. -/
def silentFlag (f : Flag) (u : State) : State := u.onPort fun p => { p with flags := p.flags.mark f }

theorem setFlag_silent {u : State} (hu : Silent u) (f : Flag) : setFlag f u = silentFlag f u :=
  setFlag_unenabled hu.enables hu.attn f

/-- A request found made is acknowledged at once (R95). -/
def transferBegun (u : State) : State :=
  if u.power.transferReq.state then silentFlag .power (u.onPower fun w => { w with transferring := true, ack := true }) else u

/-- Nothing draws a claim, and no pump stops. -/
structure Resting (u : State) : Prop where
  claims : ∀ c, claimOf u c = none
  seq : ∀ p, (u.pump p).seq ≠ .stopping
  ack : u.power.ack = false

theorem raisePower_withCauses {u : State} (hu : Silent u) (hr : Resting u) {l : List Cause}
    (hn : ((l ++ sourceCauses u).map Cause.key).Nodup) (hl : (l ++ sourceCauses u).length ≤ 47) :
    raisePower (withCauses l u) = withCauses (l ++ sourceCauses u) (transferBegun u) := by
  have hsource : (sourceEdges .mains u.power.source u.power.lines).foldl (fun s e => offerEdge e s) (withCauses l u) =
      withCauses (l ++ sourceCauses u) u :=
    (sourceEdges_cold (withCauses l u)).trans (raiseAll_withCauses hu hn hl)
  have hw : Silent (withCauses (l ++ sourceCauses u) u) := hu.of_table rfl rfl
  have hbegin : beginTransfer (withCauses (l ++ sourceCauses u) u) = withCauses (l ++ sourceCauses u)
      (silentFlag .power (u.onPower fun w => { w with transferring := true })) :=
    setFlag_silent (u := (withCauses (l ++ sourceCauses u) u).onPower fun w => { w with transferring := true })
      ⟨hw.station, hw.silence, hw.link, hw.enables, hw.attn⟩ .power
  have hover : State.handedOver (withCauses (l ++ sourceCauses u)
      (silentFlag .power (u.onPower fun w => { w with transferring := true }))) :=
    ⟨rfl, claimSum_zero fun c => (congrArg (·.getD 0) (hr.claims c) :), fun p h => hr.seq p h.1⟩
  have hbegun : testAck (beginTransfer (withCauses (l ++ sourceCauses u) u)) = withCauses (l ++ sourceCauses u)
      (silentFlag .power (u.onPower fun w => { w with transferring := true, ack := true })) := by
    rw [hbegin, testAck_due hover hr.ack]
    refine (setFlag_silent ?_ .power).trans rfl
    exact ⟨hw.station, hw.silence, hw.link, hw.enables, hw.attn⟩
  unfold raisePower transferBegun
  dsimp only
  refine (congrArg (fun v => if (withCauses l u).power.transferReq.state then testAck (beginTransfer v) else v) hsource).trans ?_
  rw [hbegun]
  exact (apply_ite (withCauses (l ++ sourceCauses u)) _ _ _).symm

/-- The screen of a rake that is locked for its overload at cold start. -/
def Screen.overloaded (now : Stamp) (sc : Screen) : Screen :=
  { sc with
    locks := sc.locks.put .overload true, acks := sc.acks.put .overload false
    completion := some ⟨sc.completion.isSome, sc.op.code, .overload, sc.position, sc.cycles, now⟩ }.rest .locked

/-- The screen of a rake that waits to home. -/
def Screen.begins (op : Operation) (sc : Screen) : Screen :=
  { sc.drive none with op := op, retries := 0, cycles := 0, rake := .waiting, saved := none }

/-- A rake locks for an overload read made, or waits in the queue to home (R119). -/
def rakeStarted (n : Ix2) (u : State) : State :=
  if (u.screen n).overload.state then silentFlag .screen (u.onScreen n (Screen.overloaded u.clock.station))
  else (u.onScreen n (Screen.begins (.home true))).onPower fun w => { w with queue := w.queue ++ [.rake n] }

/-- The entry to LOCKED of a rake that has no place in the queue and no operation ended. -/
theorem lockRake_withCauses {u : State} {n : Ix2} (hu : Silent u) (hr : (u.screen n).rake = .unhomed) (l : List Cause) :
    lockRake n .overload [0] (withCauses l u) = raiseKind .rakeOverload n.num [0]
      (withCauses l (silentFlag .screen (u.onScreen n (Screen.overloaded u.clock.station)))) := by
  have hscreen : (reasonAdded n .overload (withCauses l u)).screen n = { u.screen n with
      locks := (u.screen n).locks.put .overload true, acks := (u.screen n).acks.put .overload false } :=
    reasonAdded_screen ..
  have hrake : ((reasonAdded n .overload (withCauses l u)).screen n).rake = .unhomed := by
    rw [hscreen]
    exact hr
  have hqueued : ((reasonAdded n .overload (withCauses l u)).screen n).queued = false := by
    unfold Screen.queued
    rw [hrake]
    rfl
  have hreturns : lockedReturns n (reasonAdded n .overload (withCauses l u)) = [] := by
    unfold lockedReturns
    rw [hqueued, hrake]
    rfl
  have hlocked : enterLocked n .overload (reasonAdded n .overload (withCauses l u)) =
      withCauses l (silentFlag .screen (u.onScreen n (Screen.overloaded u.clock.station))) := by
    have hflag : ∀ f, setFlag .screen ((withCauses l u).onScreen n f) = silentFlag .screen ((withCauses l u).onScreen n f) :=
      fun f => setFlag_silent (u := (withCauses l u).onScreen n f) ⟨hu.station, hu.silence, hu.link, hu.enables, hu.attn⟩ .screen
    have hstays : (if ((reasonAdded n .overload (withCauses l u)).screen n).queued then
        waitNoMore (.rake n) (reasonAdded n .overload (withCauses l u)) else reasonAdded n .overload (withCauses l u)) =
        reasonAdded n .overload (withCauses l u) := if_neg (by rw [hqueued]; nofun)
    unfold enterLocked
    dsimp only
    rw [hstays, hscreen]
    unfold writeCompletion
    refine (congrArg (fun v => (setFlag .screen v).onScreen n (Screen.rest .locked)) (onScreen_onScreen ..)).trans ?_
    dsimp only
    rw [hflag]
    refine (congrArg (silentFlag .screen) (onScreen_onScreen (withCauses l u) n _ (Screen.rest .locked))).trans ?_
    refine (congrArg (silentFlag .screen) (onScreen_congr (g := Screen.overloaded u.clock.station) ?_)).trans ?_
    · rfl
    · rfl
  rw [lockRake_enters .overload [0] (by rw [show (withCauses l u).screen n = u.screen n from rfl, hr]; nofun), hreturns,
    offerEdges_one]
  exact congrArg (raiseKind .rakeOverload n.num [0]) hlocked

theorem beginOp_withCauses {u : State} {n : Ix2} (hb : (u.screen n).blocked = false) (hq : .rake n ∉ u.power.queue)
    (op : Operation) (l : List Cause) : beginOp n op (withCauses l u) = withCauses l
      ((u.onScreen n (Screen.begins op)).onPower fun w => { w with queue := w.queue ++ [.rake n] }) := by
  have hblocked : isBlockedRake ((withCauses l u).onScreen n (Screen.begins op)) (.rake n) = false := by
    refine (congrArg Screen.blocked (screen_onScreen n (Screen.begins op) (withCauses l u))).trans ?_
    exact hb
  have htail : queueWith ((withCauses l u).onScreen n (Screen.begins op)) (.rake n) u.power.queue =
      u.power.queue ++ [.rake n] := if_neg (by rw [hblocked]; nofun)
  exact (joinQueue_of_not_mem (s := (withCauses l u).onScreen n (Screen.begins op)) hq).trans
    (congrArg (fun q => ((withCauses l u).onScreen n (Screen.begins op)).onPower fun w => { w with queue := q }) htail)

theorem startRake_withCauses {u : State} {n : Ix2} (hu : Silent u) (hr : (u.screen n).rake = .unhomed)
    (hb : (u.screen n).blocked = false) (hq : .rake n ∉ u.power.queue) {l : List Cause}
    (hn : ((l ++ causeIf .rakeOverload n.num (u.screen n).overload.state [0]).map Cause.key).Nodup)
    (hl : (l ++ causeIf .rakeOverload n.num (u.screen n).overload.state [0]).length ≤ 47) :
    startRake (withCauses l u) n =
      withCauses (l ++ causeIf .rakeOverload n.num (u.screen n).overload.state [0]) (rakeStarted n u) := by
  have hcode : byte ((withCauses l u).screen n).rake.code = 0 := by
    rw [show (withCauses l u).screen n = u.screen n from rfl, hr]
    rfl
  unfold startRake rakeStarted
  rw [hcode, show (withCauses l u).screen n = u.screen n from rfl]
  by_cases ho : (u.screen n).overload.state = true
  · rw [ho] at hn hl ⊢
    rw [if_pos rfl, if_pos rfl, lockRake_withCauses hu hr]
    exact raiseAll_withCauses (l' := causeIf .rakeOverload n.num true [0])
      (u := silentFlag .screen (u.onScreen n (Screen.overloaded u.clock.station)))
      ⟨hu.station, hu.silence, hu.link, hu.enables, hu.attn⟩ hn hl
  · rw [Bool.eq_false_iff.mpr ho, if_neg nofun, if_neg nofun, beginOp_withCauses hb hq]
    exact congrArg (withCauses · _) (List.append_nil l).symm

end Sys2Proof.Machine
end


section
/-!
SUPPORT. The state that a cold start leaves before the end of its event (O12).
-/

namespace Sys2Proof.Machine

open Host (Outcome)

/-! The starts of the blocks, said whole -/

theorem transferBegun_eq (u : State) : transferBegun u = { u with
    power := { u.power with
      transferring := u.power.transferReq.state || u.power.transferring, ack := u.power.transferReq.state || u.power.ack }
    port := { u.port with flags := { u.port.flags with
      power := u.power.transferReq.state || u.port.flags.power } } } := by
  unfold transferBegun
  cases u.power.transferReq.state <;> rfl

theorem rakeStarted_eq (n : Ix2) (u : State) : rakeStarted n u = { u with
    screens := u.screens.modify n (if (u.screen n).overload.state then Screen.overloaded u.clock.station
      else Screen.begins (.home true))
    power := { u.power with queue := u.power.queue ++ if (u.screen n).overload.state then [] else [.rake n] }
    port := { u.port with flags := { u.port.flags with
      screen := (u.screen n).overload.state || u.port.flags.screen } } } := by
  unfold rakeStarted
  cases (u.screen n).overload.state with
  | true =>
    have hqueue := List.append_nil u.power.queue
    exact congrArg (fun q => { silentFlag .screen (u.onScreen n (Screen.overloaded u.clock.station)) with
      power := { u.power with queue := q } }) hqueue.symm
  | false => rfl

theorem startLink_eq (u : State) : startLink u = { u with
    link := if u.running.linkEnable then (enterJoining u).link else u.link } := by
  unfold startLink
  cases u.running.linkEnable <;> rfl

theorem startLink_withCauses (l : List Cause) (u : State) : startLink (withCauses l u) = withCauses l (startLink u) := by
  rw [startLink_eq, startLink_eq]
  rfl

/-- The blocks as a cold start leaves them, but for the table. -/
def coldStarted (s : State) : State := startLink (rakeStarted .i2 (rakeStarted .i1 (transferBegun (coldBlocks s))))

/-! The causes found present -/

/-- SETTINGS-FAULT, where the stored set is not loaded (R198). -/
def settingsCauses (st : Store) : List Cause := ((loadFault? st).map fun x => (Kind.settingsFault, 0, x)).toList

/-- The causes found present at cold start, in the order of their raises. -/
def coldCauses (s : State) : List Cause :=
  (Ix6.all.map (pumpCauses (coldBlocks s))).flatten ++ sourceCauses (coldBlocks s) ++
  causeIf .rakeOverload 1 (s.screen .i1).overload.line [0] ++ causeIf .rakeOverload 2 (s.screen .i2).overload.line [0] ++
  settingsCauses s.store

/-- The keys of every cause that a cold start may find. -/
def coldKeys : List Key :=
  (Ix6.all.map fun p => [⟨.pumpFailStop, p.num⟩, ⟨.pumpThermal, p.num⟩, ⟨.pumpSeal, p.num⟩]).flatten ++
  [⟨.mainsFail, 0⟩, ⟨.noPower, 0⟩] ++ [⟨.rakeOverload, 1⟩] ++ [⟨.rakeOverload, 2⟩] ++ [⟨.settingsFault, 0⟩]

theorem causeIf_keys (k : Kind) (n : Nat) (b : Bool) (x : List Byte) : ((causeIf k n b x).map Cause.key).Sublist [⟨k, n⟩] := by
  cases b
  · exact List.nil_sublist _
  · exact .refl _

theorem pumpCauses_keys (s : State) (p : Ix6) : ((pumpCauses s p).map Cause.key).Sublist
    [⟨.pumpFailStop, p.num⟩, ⟨.pumpThermal, p.num⟩, ⟨.pumpSeal, p.num⟩] := by
  unfold pumpCauses
  rw [List.map_append, List.map_append]
  exact ((causeIf_keys ..).append (causeIf_keys ..)).append (causeIf_keys ..)

theorem flatten_sublist {α : Type} {f g : Ix6 → List α} (h : ∀ p, (f p).Sublist (g p)) (ps : List Ix6) :
    (ps.map f).flatten.Sublist (ps.map g).flatten := by
  induction ps with
  | nil => exact .refl _
  | cons p ps ih => exact (h p).append ih

theorem coldCauses_keys (s : State) : ((coldCauses s).map Cause.key).Sublist coldKeys := by
  have hpumps : (((Ix6.all.map (pumpCauses (coldBlocks s))).flatten).map Cause.key).Sublist
      (Ix6.all.map fun p => [(⟨.pumpFailStop, p.num⟩ : Key), ⟨.pumpThermal, p.num⟩, ⟨.pumpSeal, p.num⟩]).flatten := by
    rw [List.map_flatten, List.map_map]
    exact flatten_sublist (fun p => pumpCauses_keys (coldBlocks s) p) Ix6.all
  have hsource : ((sourceCauses (coldBlocks s)).map Cause.key).Sublist [⟨.mainsFail, 0⟩, ⟨.noPower, 0⟩] := by
    unfold sourceCauses
    rw [List.map_append]
    exact (causeIf_keys ..).append (causeIf_keys ..)
  have hsettings : ((settingsCauses s.store).map Cause.key).Sublist [⟨.settingsFault, 0⟩] := by
    unfold settingsCauses
    cases loadFault? s.store with
    | none => exact List.nil_sublist _
    | some x => exact .refl _
  unfold coldCauses coldKeys
  simp only [List.map_append]
  exact (((hpumps.append hsource).append (causeIf_keys ..)).append (causeIf_keys ..)).append hsettings

theorem coldCauses_nodup (s : State) : ((coldCauses s).map Cause.key).Nodup :=
  (coldCauses_keys s).nodup (by decide)

theorem coldCauses_length (s : State) : (coldCauses s).length ≤ 47 := by
  have h := (coldCauses_keys s).length_le
  rw [List.length_map] at h
  exact Nat.le_trans h (by decide)

/-! The raises of a cold start -/

theorem coldBlocks_silent (s : State) : Silent (coldBlocks s) := ⟨rfl, rfl, nofun, rfl, rfl⟩

theorem Silent.transferBegun {u : State} (h : Silent u) : Silent (transferBegun u) := by
  rw [transferBegun_eq]
  exact ⟨h.station, h.silence, h.link, h.enables, h.attn⟩

theorem Silent.rakeStarted {u : State} (h : Silent u) (n : Ix2) : Silent (rakeStarted n u) := by
  rw [rakeStarted_eq]
  exact ⟨h.station, h.silence, h.link, h.enables, h.attn⟩

theorem Silent.startLink {u : State} (h : Silent u) : Silent (startLink u) := by
  rw [startLink_eq]
  refine ⟨h.station, h.silence, ?_, h.enables, h.attn⟩
  dsimp only
  split
  · nofun
  · exact h.link

theorem coldBlocks_resting (s : State) : Resting (coldBlocks s) := by
  refine ⟨fun c => ?_, fun p => ?_, rfl⟩
  · cases c with
    | pump p => exact congrArg Pump.claim (coldBlocks_pump p s)
    | rake n => exact congrArg Screen.claim (coldBlocks_screen n s)
  · rw [coldBlocks_pump]
    unfold coldPump
    dsimp only
    split
    · nofun
    · nofun
    · split <;> nofun

theorem raiseSettings_eq (st : Store) (s : State) : raiseSettings (loadFault? st) s = raiseAll (settingsCauses st) s := by
  unfold raiseSettings settingsCauses
  cases loadFault? st <;> rfl

/-- Causes whose raises find a place each, and no record of their own. -/
def Seatable (l : List Cause) : Prop := (l.map Cause.key).Nodup ∧ l.length ≤ 47

theorem Seatable.before {l l' : List Cause} (h : Seatable (l ++ l')) : Seatable l := by
  obtain ⟨hn, hl⟩ := h
  rw [List.map_append] at hn
  rw [List.length_append] at hl
  exact ⟨(List.nodup_append.mp hn).1, by omega⟩

/-- A cold start is the blocks' starts with the causes raised on an empty table, and the end of the event. -/
theorem coldStart_eq (s : State) : coldStart s = conclude (withCauses (coldCauses s) (coldStarted s)) := by
  have h5 : Seatable (coldCauses s) := ⟨coldCauses_nodup s, coldCauses_length s⟩
  unfold coldCauses at h5 ⊢
  have h4 := h5.before
  have h3 := h4.before
  have h2 := h3.before
  have h1 := h2.before
  have hsilent := coldBlocks_silent s
  have hscreen : ∀ n, (transferBegun (coldBlocks s)).screen n = coldScreen (s.screen n) := fun n => by
    rw [transferBegun_eq]
    exact coldBlocks_screen n s
  have hscreen2 : (rakeStarted .i1 (transferBegun (coldBlocks s))).screen .i2 = coldScreen (s.screen .i2) := by
    rw [rakeStarted_eq]
    exact hscreen .i2
  have hqueue : (transferBegun (coldBlocks s)).power.queue = [] := by rw [transferBegun_eq]; rfl
  have hqueue2 : .rake .i2 ∉ (rakeStarted .i1 (transferBegun (coldBlocks s))).power.queue := by
    rw [rakeStarted_eq]
    dsimp only
    rw [hqueue]
    split <;> decide
  have hpumps : Ix6.all.foldl raisePump (coldBlocks s) = _ := raisePumps_withCauses hsilent Ix6.all (l := []) h1.1 h1.2
  have hpower := raisePower_withCauses hsilent (coldBlocks_resting s) h2.1 h2.2
  have hrake1 := startRake_withCauses (n := .i1) hsilent.transferBegun (by rw [hscreen]; rfl) (by rw [hscreen]; rfl)
    (by rw [hqueue]; nofun) (l := (Ix6.all.map (pumpCauses (coldBlocks s))).flatten ++ sourceCauses (coldBlocks s))
  have hrake2 := startRake_withCauses (n := .i2) (hsilent.transferBegun.rakeStarted .i1) (by rw [hscreen2]; rfl)
    (by rw [hscreen2]; rfl) hqueue2 (l := (Ix6.all.map (pumpCauses (coldBlocks s))).flatten ++
      sourceCauses (coldBlocks s) ++ causeIf .rakeOverload 1 (s.screen .i1).overload.line [0])
  rw [hscreen] at hrake1
  rw [hscreen2] at hrake2
  have hsettings := raiseAll_withCauses (l' := settingsCauses s.store)
    ((hsilent.transferBegun.rakeStarted .i1).rakeStarted .i2).startLink h5.1 h5.2
  have hrakes : Ix2.all.foldl startRake (raisePower (Ix6.all.foldl raisePump (coldBlocks s))) = _ :=
    (congrArg (fun v => startRake (startRake v .i1) .i2) ((congrArg raisePower hpumps).trans hpower)).trans
      ((congrArg (startRake · .i2) (hrake1 h3.1 h3.2)).trans (hrake2 h4.1 h4.2))
  unfold coldStart
  dsimp only
  rw [hrakes, startLink_withCauses, raiseSettings_eq]
  exact congrArg conclude hsettings

end Sys2Proof.Machine
end


section
/-!
SUPPORT. The end of a cold start's event: rakes are granted to home, and no pump moves (O12).
-/

namespace Sys2Proof.Machine

open Host (Outcome)

/-! What a settling with nothing called leaves of pumps, duty and table -/

/-- Nothing is called, and no pump waits or runs on a call. -/
structure Calm (u : State) : Prop where
  wanted : u.duty.wanted = 0
  ladder : LadderOk u.duty.ladder
  called : ∀ p, (u.pump p).called = false
  mark : ∀ p, (u.pump p).shedMark = false
  running : ∀ p, (u.pump p).seq ≠ .running
  queued : ∀ p, (u.pump p).seq ≠ .queued

/-- Rakes on their way home, with all else as it was. -/
structure Homes (u v : State) : Prop where
  duty : v.duty = u.duty
  pumps : v.pumps = u.pumps
  table : v.table = u.table
  ann : v.ann = u.ann
  screens : ∀ n, (v.screen n).blocked = false ∧ (v.screen n).pending = false ∧ (v.screen n).shedMark = false
  queue : ∀ c ∈ v.power.queue, ∃ n, c = .rake n ∧ (v.screen n).rake = .waiting ∧ (v.screen n).op = .home true

section Homes

variable {u v : State}

theorem Homes.pump (h : Homes u v) (p : Ix6) : v.pump p = u.pump p := congrArg (Six.get · p) h.pumps

theorem Homes.setFlag (h : Homes u v) (f : Flag) : Homes u (setFlag f v) := by
  have hf := setFlag_frame f v
  exact ⟨hf.duty.trans h.duty, hf.pumps.trans h.pumps, h.table, h.ann, fun n => h.screens n, h.queue⟩

/-- An update of a screen that keeps it clear, and that keeps its rake waiting if it is queued. -/
theorem Homes.onScreen (h : Homes u v) (n : Ix2) {f : Screen → Screen}
    (hf : (f (v.screen n)).blocked = (v.screen n).blocked ∧ (f (v.screen n)).pending = (v.screen n).pending)
    (hm : (f (v.screen n)).shedMark = true → (v.screen n).shedMark = true)
    (hq : .rake n ∈ v.power.queue → (f (v.screen n)).rake = (v.screen n).rake ∧ (f (v.screen n)).op = (v.screen n).op) :
    Homes u (v.onScreen n f) := by
  refine ⟨h.duty, h.pumps, h.table, h.ann, fun m => ?_, fun c hc => ?_⟩
  · by_cases hmn : m = n
    · subst hmn
      rw [screen_onScreen, hf.1, hf.2]
      obtain ⟨hb, hp, hs⟩ := h.screens m
      exact ⟨hb, hp, Bool.eq_false_iff.mpr fun k => by rw [hm k] at hs; cases hs⟩
    · rw [State.onScreen_screen, if_neg hmn]
      exact h.screens m
  · obtain ⟨m, rfl, hw, ho⟩ := h.queue c hc
    refine ⟨m, rfl, ?_⟩
    by_cases hmn : m = n
    · subst hmn
      rw [screen_onScreen, (hq hc).1, (hq hc).2]
      exact ⟨hw, ho⟩
    · rw [State.onScreen_screen, if_neg hmn]
      exact ⟨hw, ho⟩

theorem Homes.leaveQueue (h : Homes u v) (c : Claimant) : Homes u (leaveQueue c v) :=
  ⟨h.duty, h.pumps, h.table, h.ann, h.screens, fun d hd => h.queue d ((mem_leaveQueue c d v).mp hd).1⟩

theorem Homes.writeCompletion (h : Homes u v) (n : Ix2) (o : Nat) (r : RakeOutcome) (c : Nat) :
    Homes u (writeCompletion n o r c v) := (h.onScreen n ⟨rfl, rfl⟩ id fun _ => ⟨rfl, rfl⟩).setFlag .screen

/-- The grant of a rake that waits to home: it homes, or is home at once. -/
theorem Homes.beginLeg (h : Homes u v) {n : Ix2} (hq : .rake n ∉ v.power.queue) : Homes u (beginLeg n .homing .up v) := by
  rw [beginLeg_eq, checkLimit_homing (by rw [screen_onScreen])]
  have hstage := h.onScreen n (f := fun a => { a with
      leg := .up, upCount := 0, legLimit := v.running.travelLimit n, rake := .homing, up := decide (Dir.up = .up)
      down := decide (Dir.up = .down), jamTimer := some (100 * v.running.jamTime n) }) ⟨rfl, rfl⟩ id fun k => absurd k hq
  split
  · unfold finishHoming enterIdle
    refine Homes.onScreen (Homes.writeCompletion (hstage.onScreen n ⟨rfl, rfl⟩ id fun k => absurd k hq) n _ _ _) n
      ⟨rfl, rfl⟩ id fun k => absurd ?_ hq
    rw [writeCompletion_queue] at k
    exact k
  · exact hstage

theorem Homes.unmarked (h : Homes u v) (hu : Calm u) : anyShed v = false := by
  refine Bool.eq_false_iff.mpr fun k => ?_
  obtain ⟨p, hp⟩ | ⟨n, hn⟩ := (anyShed_iff v).mp k
  · rw [h.pump, hu.mark] at hp
    cases hp
  · rw [(h.screens n).2.2] at hn
    cases hn

/-- With no mark set, none is cleared and nothing is returned. -/
theorem Homes.clearShed_eq (h : Homes u v) (hu : Calm u) (c : Claimant) : clearShed c v = setMark c false v := by
  have hbefore := h.unmarked hu
  have hafter : anyShed (setMark c false v) = false :=
    Bool.eq_false_iff.mpr fun k => by rw [anyShed_of_clear k] at hbefore; cases hbefore
  unfold clearShed shedEnds
  rw [hbefore, hafter, causeEdge_same, offerEdges_nil]

theorem Homes.grant (h : Homes u v) (hu : Calm u) {n : Ix2} (hw : (v.screen n).rake = .waiting)
    (ho : (v.screen n).op = .home true) : Homes u (grant (.rake n) v) := by
  have hleft := h.leaveQueue (.rake n)
  have hq : .rake n ∉ (Machine.leaveQueue (.rake n) v).power.queue := fun k => ((mem_leaveQueue ..).mp k).2 rfl
  have hclaim := hleft.onScreen n (f := fun sc => { sc with
    claim := some ((Machine.leaveQueue (.rake n) v).running.rakeUnits n) }) ⟨rfl, rfl⟩ id fun k => absurd k hq
  have hclaimed : Homes u (claimRake n (Machine.leaveQueue (.rake n) v)) := by
    unfold claimRake
    rw [hclaim.clearShed_eq hu]
    exact hclaim.onScreen n (f := fun q => { q with shedMark := false }) ⟨rfl, rfl⟩ nofun fun k => absurd k hq
  have hgrant : Machine.grant (.rake n) v = Machine.beginLeg n .homing .up (claimRake n (Machine.leaveQueue (.rake n) v)) := by
    have hwaiting : ((Machine.leaveQueue (.rake n) v).screen n).rake ≠ .paused := fun k => by cases hw.symm.trans k
    refine (grantRake_waiting hwaiting).trans (firstStage_home (.inl ?_))
    rw [claimRake_screen]
    exact ho
  rw [hgrant]
  refine hclaimed.beginLeg ?_
  rw [claimRake_queue]
  exact hq

theorem Homes.testIdle (h : Homes u v) (n : Ix2) : Homes u (testIdle n v) := by
  unfold Machine.testIdle
  dsimp only
  rw [(h.screens n).1, (h.screens n).2.1, Bool.or_false, Bool.and_false]
  exact h.onScreen n ⟨rfl, rfl⟩ id fun _ => ⟨rfl, rfl⟩

/-- Nothing is called where none is wanted. -/
theorem Homes.formCalled (h : Homes u v) (hu : Calm u) : formCalled v = v := by
  have hset : calledSet v = [] := by
    unfold calledSet
    rw [h.duty, hu.wanted, Nat.zero_sub, List.take_zero, List.take_zero, List.append_nil]
  have hpumps : (Six.gen fun p => { v.pump p with called := (calledSet v).contains p }) = v.pumps := by
    have hsame : ∀ p, { v.pump p with called := (calledSet v).contains p } = v.pump p := fun p => by
      have hcalled : (calledSet v).contains p = (v.pump p).called := by
        rw [hset, h.pump, hu.called]
        rfl
      rw [hcalled]
    rw [funext hsame]
    rfl
  exact congrArg (fun x => { v with pumps := x }) hpumps

theorem Homes.nextMove (h : Homes u v) (hu : Calm u) (hfree : 0 ≤ free v) {f : State → State} (hf : nextMove v = some f) :
    Homes u (f v) := by
  have hrunning : v.duty.ladder.find? (fun p => (v.pump p).withdrawn) = none := List.find?_eq_none.mpr fun p _ k => by
    unfold Pump.withdrawn at k
    rw [Bool.and_eq_true, Bool.and_eq_true, decide_eq_true_eq, h.pump] at k
    exact hu.running p k.1.1
  have hqueued : v.duty.ladder.find? (fun p => (v.pump p).seq = .queued && !(v.pump p).called) = none :=
    List.find?_eq_none.mpr fun p _ k => by
      rw [Bool.and_eq_true, decide_eq_true_eq, h.pump] at k
      exact hu.queued p k.1
  have hcalled : v.duty.ladder.find? (fun p => (v.pump p).seq = .idle && (v.pump p).called) = none :=
    List.find?_eq_none.mpr fun p _ k => by
      rw [Bool.and_eq_true, h.pump, hu.called] at k
      cases k.2
  unfold Machine.nextMove at hf
  rw [if_neg (by simp only [Bool.and_eq_true, decide_eq_true_eq]; omega), hrunning] at hf
  dsimp only at hf
  rw [hqueued] at hf
  dsimp only at hf
  rw [hcalled] at hf
  dsimp only at hf
  split at hf
  next c hc =>
    obtain ⟨n, rfl, hw, ho⟩ := h.queue c (List.mem_of_mem_head? (Option.filter_eq_some_iff.mp hc).1)
    cases hf
    exact h.grant hu hw ho
  next =>
    obtain ⟨n, -, rfl⟩ := Option.map_eq_some_iff.mp hf
    exact h.testIdle n

theorem Homes.settleMoves (hu : Calm u) (k : Nat) (h : Homes u v) (hfree : 0 ≤ free v) : Homes u (settleMoves k v) := by
  induction k generalizing v with
  | zero =>
    unfold Machine.settleMoves
    rw [h.formCalled hu]
    exact h
  | succ k ih =>
    unfold Machine.settleMoves
    dsimp only
    rw [h.formCalled hu]
    split
    next f hf => exact ih (h.nextMove hu hfree hf) (nextMove_free (by rw [h.duty]; exact hu.ladder) hf)
    next => exact h

theorem Homes.clearIdleShed (hu : Calm u) (h : Homes u v) : Homes u (clearIdleShed v) := by
  have hstep : ∀ (w : State) (p : Ix6), Homes u w →
      Homes u (if (w.pump p).seq = .idle then clearShed (.pump p) w else w) := by
    intro w p hw
    split
    · have hsame : w.onPump p (fun q => { q with shedMark := false }) = w.onPump p id :=
        onPump_congr (by rw [id, hw.pump, ← hu.mark p])
      have hstands : w.onPump p id = w := by cases p <;> rfl
      have hmark : setMark (.pump p) false w = w := hsame.trans hstands
      rw [hw.clearShed_eq hu, hmark]
      exact hw
    · exact hw
  have hall : ∀ (ps : List Ix6) (w : State), Homes u w →
      Homes u (ps.foldl (fun s p => if (s.pump p).seq = .idle then clearShed (.pump p) s else s) w) := by
    intro ps
    induction ps with
    | nil => exact fun _ hw => hw
    | cons p ps ih => exact fun w hw => ih _ (hstep w p hw)
  exact hall Ix6.all v h

theorem Homes.testAck (h : Homes u v) : Homes u (testAck v) := by
  unfold Machine.testAck
  split
  · exact Homes.setFlag (v := v.onPower fun w => { w with ack := true })
      ⟨h.duty, h.pumps, h.table, h.ann, h.screens, h.queue⟩ .power
  · exact h

theorem Homes.testSaturation (h : Homes u v) (hs : u.table.saturated = false) : Homes u (testSaturation v) := by
  unfold Machine.testSaturation
  rw [h.table, hs]
  exact h

/-- The settling of an event with nothing called, from a state whose rakes wait to home. -/
theorem Homes.settled (hu : Calm u) (h : Homes u u) (hfree : 0 ≤ free u) (hs : u.table.saturated = false) :
    Homes u (Machine.testSaturation (settle u)) :=
  ((h.settleMoves hu moveBound hfree).clearIdleShed hu).testAck.testSaturation hs

end Homes

/-- The frame that a JOIN-OFFER owed makes, where the link is in JOINING with an idle transmitter; none else is sent. -/
theorem transmit_start {w : State} (hidle : w.link.sending = none)
    (hl : w.link.state = .offline ∨ (w.link.state = .joining ∧ w.link.offersOwed = 1)) : transmit w =
      { w with link := { w.link with
        offersOwed := if w.link.state = .joining then 0 else w.link.offersOwed
        sending := if w.link.state = .joining then some (offerFrame w) else none } } := by
  obtain hl | ⟨hl, ho⟩ := hl
  · rw [transmit_idle hidle (.inl hl)]
    rw [if_neg (by rw [hl]; nofun), if_neg (by rw [hl]; nofun), ← hidle]
  · rw [transmit_offer hidle hl (by rw [ho]; nofun), if_pos hl, if_pos hl]
    exact congrArg (fun k => { w with link := { w.link with offersOwed := k, sending := some (offerFrame w) } })
      (congrArg (· - 1) ho)

/-- The end of a cold start's event. -/
theorem conclude_cold {u : State} (hu : Calm u) (h : Homes u u) (hc : claimSum u = 0) (hs : u.table.saturated = false)
    (hidle : u.link.sending = none)
    (hl : u.link.state = .offline ∨ (u.link.state = .joining ∧ u.link.offersOwed = 1))
    (hsilence : u.ann.silence = false) (hperiod : u.level.anyPeriodEnd = false) (hattn : u.port.attn = false)
    (hen : u.port.enables = .none) : let t := conclude u
    t.link = { u.link with
      offersOwed := if u.link.state = .joining then 0 else u.link.offersOwed
      sending := if u.link.state = .joining then some (offerFrame u) else none } ∧
    t.duty = u.duty ∧ t.pumps = u.pumps ∧ t.table = u.table ∧ t.ann.silence = false ∧ t.ann.relay = false ∧
    t.port.attn = false := by
  intro t
  have hw := h.settled hu (free_of_unclaimed hc) hs
  have hframe := settled_frame u
  have hc : ConcludeFrame u t := conclude_frame u
  have hlink : (testSaturation (settle u)).link = u.link := hframe.still (hframe.wakes.resolve_right fun ⟨k, _⟩ => by
    rw [k] at hl
    obtain hl | hl := hl
    · cases hl
    · cases hl.1)
  have ht : t = transmit (annunciate (testSaturation (settle u))) := conclude_eq u
  generalize testSaturation (settle u) = w at hw hframe hlink ht
  have hwlink : (annunciate w).link = u.link := hlink
  have hframed : offerFrame (annunciate w) = offerFrame u := by
    show (⟨0x01, 0, bytes2 w.running.stationId ++ bytes4 w.clock.uptime.secs ++ [48, 4]⟩ : Frame) = _
    rw [hframe.clock, State.running, hframe.store]
    rfl
  rw [transmit_start (by rw [hwlink]; exact hidle) (by rw [hwlink]; exact hl), hwlink, hframed] at ht
  have henabled : t.port.enables = .none := by rw [hc.port]; exact hen
  have hformed : t.port.attn = (t.port.flags.meet t.port.enables).some? := hc.attn (by
    unfold AttnOk
    rw [hattn, hen, meet_none])
  refine ⟨by rw [ht], ?_, ?_, ?_, ?_, ?_, ?_⟩
  · rw [ht]
    exact hw.duty
  · rw [ht]
    exact hw.pumps
  · rw [ht]
    exact hw.table
  · rw [ht]
    show (w.ann.silence && hornDemand w) = false
    rw [hw.ann, hsilence]
    rfl
  · rw [ht]
    show (w.level.anyPeriodEnd && _) = false
    rw [hframe.level, hperiod]
    rfl
  · rw [hformed, henabled, meet_none]

end Sys2Proof.Machine
end


section
/-!
SUPPORT. The values of a cold start, block by block (O12).
-/

namespace Sys2Proof.Machine

open Host (Outcome)

/-- A cold start before the end of its event. -/
def coldState (s : State) : State := withCauses (coldCauses s) (coldStarted s)

section ColdState

variable (s : State)

/-- The settings that a cold start loads, and whether they are the stored ones (R198). -/
theorem loadFault?_isSome (st : Store) : (loadFault? st).isSome = !(st.checksumGood && st.image.firstFault?.isNone) := by
  unfold loadFault?
  cases st.checksumGood
  · rfl
  · cases st.image.firstFault? <;> rfl

theorem settingsCauses_eq {st : Store} {x : List Byte} (hbad : st.checksumGood = false → x = [0, 0])
    (hfault : st.checksumGood = true → ∀ f, st.image.firstFault? = some f → x = [byte f.1, byte f.2]) :
    settingsCauses st = causeIf .settingsFault 0 (!(st.checksumGood && st.image.firstFault?.isNone)) x := by
  unfold settingsCauses loadFault?
  cases hsum : st.checksumGood with
  | false => rw [hbad hsum]; rfl
  | true =>
    cases hf : st.image.firstFault? with
    | none => rfl
    | some f => rw [hfault hsum f hf]; rfl

/-- The starts of both rakes, by their overload inputs. -/
theorem rakesStarted_eq {u : State} {o1 o2 : Bool} (h1 : (u.screen .i1).overload.state = o1)
    (h2 : (u.screen .i2).overload.state = o2) : rakeStarted .i2 (rakeStarted .i1 u) = { u with
      screens := ⟨if o1 then u.screens.a1.overloaded u.clock.station else u.screens.a1.begins (.home true),
        if o2 then u.screens.a2.overloaded u.clock.station else u.screens.a2.begins (.home true)⟩
      power := { u.power with queue := u.power.queue ++ (if o1 then [] else [.rake .i1]) ++ if o2 then [] else [.rake .i2] }
      port := { u.port with flags := { u.port.flags with screen := o2 || (o1 || u.port.flags.screen) } } } := by
  have h2' : ((rakeStarted .i1 u).screen .i2).overload.state = o2 := by
    rw [rakeStarted_eq]
    exact h2
  rw [rakeStarted_eq .i2, h2', rakeStarted_eq .i1, h1]
  cases o1 <;> cases o2 <;> rfl

/-- The blocks as a cold start leaves them, but for the table, given whether a request is made and whether a rake is
overloaded. -/
def startedBlocks (request overload : Bool) : State := { coldBlocks s with
  power := { coldPower s.power with
    transferring := request, ack := request
    queue := (if (s.screen .i1).overload.line then [] else [.rake .i1]) ++
      if (s.screen .i2).overload.line then [] else [.rake .i2] }
  screens := ⟨if (s.screen .i1).overload.line then (coldScreen (s.screen .i1)).overloaded .zero
      else (coldScreen (s.screen .i1)).begins (.home true),
    if (s.screen .i2).overload.line then (coldScreen (s.screen .i2)).overloaded .zero
      else (coldScreen (s.screen .i2)).begins (.home true)⟩
  port := { (coldBlocks s).port with flags := { Attention.none with screen := overload, power := request } }
  link := if (loadedSettings s.store).linkEnable then (enterJoining (coldBlocks s)).link else (coldBlocks s).link }

theorem coldStarted_eq : coldStarted s = startedBlocks s s.power.transferReq.line
    ((s.screen .i1).overload.line || (s.screen .i2).overload.line) := by
  have hrequest : (s.power.transferReq.line || false) = s.power.transferReq.line := Bool.or_false _
  have hoverload : ((s.screen .i2).overload.line || ((s.screen .i1).overload.line || false)) =
      ((s.screen .i1).overload.line || (s.screen .i2).overload.line) := by rw [Bool.or_false, Bool.or_comm]
  unfold coldStarted
  rw [startLink_eq, transferBegun_eq, rakesStarted_eq (o1 := (s.screen .i1).overload.line)
    (o2 := (s.screen .i2).overload.line) rfl rfl, ← hrequest, ← hoverload]
  rfl

theorem coldState_eq : coldState s = withCauses (coldCauses s) (startedBlocks s s.power.transferReq.line
    ((s.screen .i1).overload.line || (s.screen .i2).overload.line)) := by
  rw [coldState, coldStarted_eq]

theorem coldState_pump (p : Ix6) : (coldState s).pump p = coldPump (s.pump p) := by
  rw [coldState_eq]
  exact coldBlocks_pump p s

theorem coldState_screen (n : Ix2) : (coldState s).screen n = if (s.screen n).overload.line
    then (coldScreen (s.screen n)).overloaded .zero else (coldScreen (s.screen n)).begins (.home true) := by
  rw [coldState_eq]
  cases n <;> rfl

theorem coldState_link : (coldState s).link = if (loadedSettings s.store).linkEnable
    then (enterJoining (coldBlocks s)).link else (coldBlocks s).link := by
  rw [coldState_eq]
  rfl

theorem coldPump_seq (q : Pump) : (coldPump q).seq ≠ .running ∧ (coldPump q).seq ≠ .queued := by
  unfold coldPump
  dsimp only
  split
  · exact ⟨nofun, nofun⟩
  · exact ⟨nofun, nofun⟩
  · split <;> exact ⟨nofun, nofun⟩

theorem coldState_calm : Calm (coldState s) := by
  refine ⟨?_, ?_, fun p => ?_, fun p => ?_, fun p => ?_, fun p => ?_⟩
  · rw [coldState_eq]
    rfl
  · rw [coldState_eq]
    exact List.Perm.refl _
  · rw [coldState_pump]
    rfl
  · rw [coldState_pump]
    rfl
  · rw [coldState_pump]
    exact (coldPump_seq _).1
  · rw [coldState_pump]
    exact (coldPump_seq _).2

theorem coldState_queue : (coldState s).power.queue = (if (s.screen .i1).overload.line then [] else [.rake .i1]) ++
    if (s.screen .i2).overload.line then [] else [.rake .i2] := by
  rw [coldState_eq]
  rfl

theorem coldState_homes : Homes (coldState s) (coldState s) := by
  refine ⟨rfl, rfl, rfl, rfl, fun n => ?_, fun c hc => ?_⟩
  · rw [coldState_screen]
    split <;> exact ⟨rfl, rfl, rfl⟩
  · have hwaits : ∀ n, (s.screen n).overload.line = false → ∃ m, Claimant.rake n = .rake m ∧
        ((coldState s).screen m).rake = .waiting ∧ ((coldState s).screen m).op = .home true := fun n hn => by
      refine ⟨n, rfl, ?_⟩
      rw [coldState_screen, hn]
      exact ⟨rfl, rfl⟩
    rw [coldState_queue, List.mem_append] at hc
    obtain hc | hc := hc
    · split at hc
      · cases hc
      next h =>
        rw [List.mem_singleton] at hc
        exact hc ▸ hwaits .i1 (Bool.eq_false_iff.mpr h)
    · split at hc
      · cases hc
      next h =>
        rw [List.mem_singleton] at hc
        exact hc ▸ hwaits .i2 (Bool.eq_false_iff.mpr h)

theorem coldState_unclaimed : claimSum (coldState s) = 0 := by
  refine claimSum_zero fun c => ?_
  cases c with
  | pump p => exact congrArg (fun q : Pump => q.claim.getD 0) (coldState_pump s p)
  | rake n =>
    refine (congrArg (fun q : Screen => q.claim.getD 0) (coldState_screen s n)).trans ?_
    split <;> rfl

/-! The blocks of a cold start, one by one -/

theorem coldState_clock : (coldState s).clock = ⟨.zero, .zero, false⟩ := by
  rw [coldState_eq]
  rfl

theorem coldState_store : (coldState s).store = ⟨loadedSettings s.store, loadedSettings s.store, s.store.image,
    s.store.checksumGood, none, (loadFault? s.store).isSome, false⟩ := by
  rw [coldState_eq]
  rfl

theorem coldState_level : (coldState s).level = coldLevel (loadedSettings s.store) s.level := by
  rw [coldState_eq]
  rfl

theorem coldState_balance : (coldState s).balance = .cold := by
  rw [coldState_eq]
  rfl

theorem coldState_duty : (coldState s).duty = .cold := by
  rw [coldState_eq]
  rfl

theorem coldState_power : (coldState s).power = { coldPower s.power with
    transferring := s.power.transferReq.line, ack := s.power.transferReq.line
    queue := (if (s.screen .i1).overload.line then [] else [.rake .i1]) ++
      if (s.screen .i2).overload.line then [] else [.rake .i2] } := by
  rw [coldState_eq]
  rfl

theorem coldState_table : (coldState s).table = causeTable (coldCauses s) := rfl

theorem coldState_ann : (coldState s).ann = .cold := by
  rw [coldState_eq]
  rfl

theorem coldState_port : (coldState s).port = { Port.cold with
    resetLine := s.port.resetLine
    flags := { Attention.none with
      condition := !(coldCauses s).isEmpty
      screen := (s.screen .i1).overload.line || (s.screen .i2).overload.line
      power := s.power.transferReq.line } } := by
  rw [coldState_eq]
  rfl

theorem coldState_shown : (coldState s).shown = .cold (loadedSettings s.store).rotationFixed := by
  rw [coldState_eq]
  rfl

theorem coldState_pending : (coldState s).pending = s.pending := by
  rw [coldState_eq]
  rfl

/-- The link with its first offer owed, where the set enables it. -/
theorem coldState_link_eq : (coldState s).link = { Link.cold (loadedSettings s.store) with
    state := if (loadedSettings s.store).linkEnable then .joining else .offline
    baud := (loadedSettings s.store).linkBaud
    offersOwed := if (loadedSettings s.store).linkEnable then 1 else 0
    offerTimer := if (loadedSettings s.store).linkEnable then some 500 else none } := by
  rw [coldState_link]
  cases hon : (loadedSettings s.store).linkEnable
  · rfl
  · rfl

theorem offerFrame_coldState : offerFrame (coldState s) =
    ⟨1, 0, bytes2 (loadedSettings s.store).stationId ++ [0, 0, 0, 0, 48, 4]⟩ := by
  unfold offerFrame State.running
  rw [coldState_store, coldState_clock, List.append_assoc]
  rfl

theorem coldState_concluded : let u := coldState s; let t := conclude u
    t.link = { u.link with
      offersOwed := 0
      sending := if (loadedSettings s.store).linkEnable
        then some ⟨1, 0, bytes2 (loadedSettings s.store).stationId ++ [0, 0, 0, 0, 48, 4]⟩ else none } ∧
    t.duty = u.duty ∧ t.pumps = u.pumps ∧ t.table = u.table ∧ t.ann.silence = false ∧ t.ann.relay = false ∧
    t.port.attn = false := by
  have hlink := coldState_link_eq s
  have hidle : (coldState s).link.sending = none := by
    rw [hlink]
    rfl
  have hstate : (coldState s).link.state = .offline ∨
      ((coldState s).link.state = .joining ∧ (coldState s).link.offersOwed = 1) := by
    rw [hlink]
    cases (loadedSettings s.store).linkEnable
    · exact .inl rfl
    · exact .inr ⟨rfl, rfl⟩
  obtain ⟨hsent, hrest⟩ := conclude_cold (coldState_calm s) (coldState_homes s) (coldState_unclaimed s) rfl hidle hstate
    (by rw [coldState_ann]; rfl) (by rw [coldState_level]; rfl) (by rw [coldState_port]; rfl) (by rw [coldState_port]; rfl)
  refine ⟨hsent.trans ?_, hrest⟩
  rw [offerFrame_coldState, hlink]
  cases (loadedSettings s.store).linkEnable <;> rfl

end ColdState

/-- The selector that two lines give. -/
theorem selectorOf_eq (h a : Bool) :
    selectorOf h a = if h ∧ ¬a then .hand else if a ∧ ¬h then .auto else .off := by
  cases h <;> cases a <;> rfl

/-- The sequencer state of a cold start (R80). -/
def coldSeq (sel : Selector) (feedback : Bool) : Seq :=
  match sel with
  | .off => .off
  | .hand => .hand
  | .auto => if feedback then .runOn else .idle

/-- A pump's cold-start values, its selector given. -/
theorem coldPump_eq {q : Pump} {sel : Selector} (h : selectorOf q.hand.line q.auto.line = sel) : coldPump q =
    { Pump.cold with
      hand := q.hand.asRead, auto := q.auto.asRead, feedback := q.feedback.asRead, thermal := q.thermal.asRead
      sealProbe := q.sealProbe.asRead, selector := sel, seq := coldSeq sel q.feedback.line
      locks := { Pump.cold.locks with thermal := q.thermal.line } } :=
  h ▸ rfl

/-- The causes of a cold start, with its selectors, its settings' extra data and its lines given. -/
theorem coldCauses_eq {s : State} {sel : Ix6 → Selector} {x : List Byte}
    (hsel : ∀ p, selectorOf (s.pump p).hand.line (s.pump p).auto.line = sel p)
    (hbad : s.store.checksumGood = false → x = [0, 0])
    (hfault : s.store.checksumGood = true → ∀ f, s.store.image.firstFault? = some f → x = [byte f.1, byte f.2]) :
    coldCauses s = (Ix6.all.map fun p =>
      causeIf .pumpFailStop p.num (decide (coldSeq (sel p) (s.pump p).feedback.line = .runOn)) [4] ++
      causeIf .pumpThermal p.num (s.pump p).thermal.line [byte (coldSeq (sel p) (s.pump p).feedback.line).code] ++
      causeIf .pumpSeal p.num (s.pump p).sealProbe.line []).flatten ++
    causeIf .mainsFail 0 (decide ((coldPower s.power).source ≠ .mains)) [byte (bits [s.power.mainsOk.line, s.power.genOn.line,
      s.power.transferReq.line])] ++
    causeIf .noPower 0 (decide ((coldPower s.power).source = .none)) [byte (bits [s.power.mainsOk.line, s.power.genOn.line,
      s.power.transferReq.line])] ++
    causeIf .rakeOverload 1 (s.screen .i1).overload.line [0] ++ causeIf .rakeOverload 2 (s.screen .i2).overload.line [0] ++
    causeIf .settingsFault 0 (!(s.store.checksumGood && s.store.image.firstFault?.isNone)) x := by
  have hpump : ∀ p, pumpCauses (coldBlocks s) p =
      causeIf .pumpFailStop p.num (decide (coldSeq (sel p) (s.pump p).feedback.line = .runOn)) [4] ++
      causeIf .pumpThermal p.num (s.pump p).thermal.line [byte (coldSeq (sel p) (s.pump p).feedback.line).code] ++
      causeIf .pumpSeal p.num (s.pump p).sealProbe.line [] := fun p => by
    rw [pumpCauses, coldBlocks_pump, coldPump_eq (hsel p)]
    rfl
  unfold coldCauses
  rw [funext hpump, settingsCauses_eq hbad hfault]
  unfold sourceCauses
  rw [← List.append_assoc]
  rfl

/-- The end of the RESET# timer is a cold start. -/
theorem execResetTimerExpiry_due {s : State} (hline : s.port.resetLine = true) (htimer : s.port.resetTimer = some 0) :
    exec .resetTimerExpiry s = .next (coldStart s) := by
  have hdue : (s.port.resetLine && timerDue s.port.resetTimer) = true := by rw [hline, htimer]; rfl
  exact congrArg Outcome.next (if_pos hdue)

theorem exec_coldStart (s : State) : exec .coldStart s = .next (conclude (coldState s)) :=
  congrArg Outcome.next (coldStart_eq s)

/-- Settles O12: the blocks take their values one after another, and the end of the event moves only the rakes, the power
and what the transmitter takes. -/
theorem coldStartValues : Obligations.ColdStartValues := by
  refine ⟨fun s => ⟨coldState s, conclude (coldState s), exec_coldStart s, rfl, ?_⟩,
    fun s hline htimer => ⟨coldStart s, execResetTimerExpiry_due hline htimer, rfl⟩⟩
  obtain ⟨hsent, hrest⟩ := coldState_concluded s
  intro read open_ good c
  refine ⟨coldState_clock s, (coldState_store s).trans ?_, coldState_level s, coldState_balance s, coldState_duty s, ?_,
    ⟨coldState_link_eq s, hsent⟩, coldState_shown s, coldState_pending s, hrest⟩
  · exact congrArg (fun b => (⟨c, c, s.store.image, s.store.checksumGood, none, b, false⟩ : Store)) (loadFault?_isSome s.store)
  · intro sel seq cause source lines causes
    have hsel : ∀ p, selectorOf (s.pump p).hand.line (s.pump p).auto.line = sel p := fun p => selectorOf_eq ..
    have hcauses : coldCauses s = causes := coldCauses_eq hsel (fun h => by rw [h]; rfl) (fun h f hf => by rw [h, hf]; rfl)
    refine ⟨fun p => ?_, coldState_power s, fun n => ?_, ?_, coldState_ann s, ?_⟩
    · exact (coldState_pump s p).trans (coldPump_eq (hsel p))
    · refine (coldState_screen s n).trans ?_
      cases (s.screen n).overload.line <;> rfl
    · exact (coldState_table s).trans (congrArg causeTable hcauses)
    · rw [← hcauses]
      exact coldState_port s

end Sys2Proof.Machine
end


section
/-!
SUPPORT. Level Acquisition at a period end, and what the rest of a period end leaves of it (O15).
-/

namespace Sys2Proof.Machine

open Host (Outcome)

/-! A channel over a period end (R5 to R7) -/

section Channel

variable (p : Nat) (ch : Channel)

theorem formPeriod_eq : ch.formPeriod p = { ch with
    period := if 5 * p ≤ ch.count then .valid else if ch.held.isSome then .stale else .none
    held := if 5 * p ≤ ch.count then some (ch.sum / ch.count) else ch.held } := by
  unfold Channel.formPeriod
  split <;> rfl

theorem formPeriod_valid : (ch.formPeriod p).period = .valid ↔ 5 * p ≤ ch.count := by
  rw [formPeriod_eq]
  dsimp only
  split
  next h => exact ⟨fun _ => h, fun _ => rfl⟩
  next h =>
    refine ⟨fun hv => ?_, fun k => absurd k h⟩
    split at hv
    · cases hv
    · cases hv

theorem countPeriod_eq : ch.countPeriod = { ch with
    invalid := if ch.period = .valid then 0 else min 255 (ch.invalid + 1)
    valid := if ch.period = .valid then min 255 (ch.valid + 1) else 0
    fault := if ch.period = .valid then ch.fault && decide (min 255 (ch.valid + 1) < 2)
      else ch.fault || decide (2 ≤ min 255 (ch.invalid + 1)) } := by
  unfold Channel.countPeriod
  split <;> rfl

/-- A channel after its period end (R5 to R7, R15). -/
theorem nextPeriod_eq (c : Settings) (n : Ix6) : ((ch.formPeriod p).countPeriod).nextPeriod c n = { ch with
    period := if 5 * p ≤ ch.count then .valid else if ch.held.isSome then .stale else .none
    held := if 5 * p ≤ ch.count then some (ch.sum / ch.count) else ch.held
    invalid := if 5 * p ≤ ch.count then 0 else min 255 (ch.invalid + 1)
    valid := if 5 * p ≤ ch.count then min 255 (ch.valid + 1) else 0
    fault := if 5 * p ≤ ch.count then ch.fault && decide (min 255 (ch.valid + 1) < 2)
      else ch.fault || decide (2 ≤ min 255 (ch.invalid + 1))
    sum := 0, count := 0, offset := c.offset n, span := c.span n } := by
  rw [countPeriod_eq]
  simp only [formPeriod_valid]
  rw [formPeriod_eq]
  rfl

theorem nextPeriod_validValue (c : Settings) (n : Ix6) : (((ch.formPeriod p).countPeriod).nextPeriod c n).validValue? =
    if 5 * p ≤ ch.count then some (ch.sum / ch.count) else none := by
  rw [nextPeriod_eq]
  unfold Channel.validValue?
  dsimp only
  by_cases h : 5 * p ≤ ch.count
  · simp only [if_pos h, if_true]
  · simp only [if_neg h]
    cases ch.held <;> rfl

end Channel

/-! The well level, the mode and the high levels (R9 to R13) -/

theorem apart_eq (a b : Nat) : apart a b = max a b - min a b := by
  unfold apart
  omega

theorem selectLevel_both (band a b : Nat) : selectLevel band (some a) (some b) =
    some (if max a b - min a b ≤ band then (a + b) / 2 else max a b) := by
  rw [← apart_eq]
  exact (apply_ite some _ _ _).symm

theorem disagreeAfter_both (band a b : Nat) (was : Bool) : disagreeAfter band was (some a) (some b) =
    decide (band < max a b - min a b) := by
  rw [← apart_eq]
  rfl

section Level

variable (l : Level)

theorem setMode_known {w : Nat} (h : l.wellLevel = some w) : l.setMode = { l with
    anyPeriodEnd := true, mode := .level, floatMode := if l.mode = .float then false else l.floatMode } := by
  unfold Level.setMode
  rw [h]
  cases l.mode with
  | float => rfl
  | level => rfl

theorem setMode_unknown (h : l.wellLevel = none) : l.setMode = { l with
    anyPeriodEnd := true, mode := .float
    floatMode := if l.mode = .float then l.floatMode || l.anyPeriodEnd else true } := by
  unfold Level.setMode
  rw [h]
  cases l.mode with
  | float => rfl
  | level => rfl

/-- The level mode and FLOAT-MODE move by the well level, and nothing else of the block (R11). -/
theorem setMode_eq : l.setMode = { l with
    anyPeriodEnd := true
    mode := if l.wellLevel.isSome then .level else .float
    floatMode := l.setMode.floatMode } := by
  obtain h | ⟨w, h⟩ := Option.eq_none_or_eq_some l.wellLevel
  · rw [setMode_unknown l h, h]
    rfl
  · rw [setMode_known l h, h]
    rfl

theorem testHigh_known (c : Settings) {w : Nat} (h : l.wellLevel = some w) : l.testHigh c = { l with
    highLevel := if c.highSetpoint ≤ w then true else if w + 50 ≤ c.highSetpoint then false else l.highLevel
    hhLevelPart := decide (c.hhSetpoint ≤ w)
    highHighCause := l.hhFloatPart || decide (c.hhSetpoint ≤ w) } := by
  unfold Level.testHigh
  rw [h]
  rfl

theorem testHigh_unknown (c : Settings) (h : l.wellLevel = none) : l.testHigh c = l := by
  unfold Level.testHigh
  rw [h]

/-- Only HIGH-LEVEL and HIGH-HIGH follow the well level's test (R12, R13). -/
theorem testHigh_eq (c : Settings) : l.testHigh c = { l with
    highLevel := (l.testHigh c).highLevel
    hhLevelPart := (l.testHigh c).hhLevelPart
    highHighCause := (l.testHigh c).highHighCause } := by
  obtain h | ⟨w, h⟩ := Option.eq_none_or_eq_some l.wellLevel
  · rw [testHigh_unknown l c h]
  · rw [testHigh_known l c h]

end Level

/-! The period end of the block -/

section PeriodEnd

variable (c : Settings) (l : Level)

/-- A channel's value at a period end, while it is valid (R6). -/
def Level.periodValue (n : Ix6) : Option Nat :=
  if 5 * l.periodSecs ≤ (l.channels.get n).count then some ((l.channels.get n).sum / (l.channels.get n).count) else none

/-- Level Acquisition at a period end, up to the well level. -/
def Level.selected : Level := (l.formPeriods c).selectWell c

theorem selected_channel (n : Ix6) : (l.selected c).channels.get n =
    (((l.channels.get n).formPeriod l.periodSecs).countPeriod).nextPeriod c n := Six.get_gen _ n

theorem selected_value (n : Ix6) : ((l.selected c).channels.get n).validValue? = l.periodValue n := by
  rw [selected_channel]
  exact nextPeriod_validValue ..

theorem selected_wellLevel : (l.selected c).wellLevel = selectLevel c.agreementBand (l.periodValue .i4) (l.periodValue .i5) := by
  rw [← selected_value c l .i4, ← selected_value c l .i5]
  rfl

theorem selected_wellDisagree : (l.selected c).wellDisagree =
    disagreeAfter c.agreementBand l.wellDisagree (l.periodValue .i4) (l.periodValue .i5) := by
  rw [← selected_value c l .i4, ← selected_value c l .i5]
  rfl

/-- What of the selection the mode and the tests leave, and what they make of the rest (R11). -/
theorem periodEnd_eq : l.periodEnd c = { l.selected c with
    anyPeriodEnd := true
    mode := if (l.selected c).wellLevel.isSome then .level else .float
    floatMode := (l.selected c).setMode.floatMode
    highLevel := (l.periodEnd c).highLevel
    hhLevelPart := (l.periodEnd c).hhLevelPart
    highHighCause := (l.periodEnd c).highHighCause } := by
  have htest := testHigh_eq (l.selected c).setMode c
  have hmode := setMode_eq (l.selected c)
  exact htest.trans (congrArg (fun x : Level => { x with
    highLevel := (l.periodEnd c).highLevel
    hhLevelPart := (l.periodEnd c).hhLevelPart
    highHighCause := (l.periodEnd c).highHighCause }) hmode)

theorem periodEnd_channel (n : Ix6) : (l.periodEnd c).channels.get n =
    (((l.channels.get n).formPeriod l.periodSecs).countPeriod).nextPeriod c n := by
  rw [periodEnd_eq]
  exact selected_channel c l n

theorem periodEnd_wellLevel : (l.periodEnd c).wellLevel = (l.selected c).wellLevel := by
  rw [periodEnd_eq]

theorem periodEnd_wellDisagree : (l.periodEnd c).wellDisagree = (l.selected c).wellDisagree := by
  rw [periodEnd_eq]

theorem periodEnd_floatMode : (l.periodEnd c).floatMode = if (l.selected c).wellLevel.isSome
    then (if l.mode = .float then false else l.floatMode)
    else if l.mode = .float then l.floatMode || l.anyPeriodEnd else true := by
  rw [periodEnd_eq]
  dsimp only
  obtain h | ⟨w, h⟩ := Option.eq_none_or_eq_some (l.selected c).wellLevel
  · rw [setMode_unknown _ h, h]
    rfl
  · rw [setMode_known _ h, h]
    rfl

theorem periodEnd_known {w : Nat} (h : (l.periodEnd c).wellLevel = some w) :
    (l.periodEnd c).highLevel = (if c.highSetpoint ≤ w then true
      else if w + 50 ≤ c.highSetpoint then false else l.highLevel) ∧
    (l.periodEnd c).hhLevelPart = decide (c.hhSetpoint ≤ w) ∧
    (l.periodEnd c).highHighCause = (l.hhFloatPart || (l.periodEnd c).hhLevelPart) := by
  rw [periodEnd_wellLevel] at h
  have hmode := setMode_known _ h
  have htest : l.periodEnd c = _ := testHigh_known (l.selected c).setMode c (w := w) (by rw [hmode]; exact h)
  rw [htest, hmode]
  exact ⟨rfl, rfl, rfl⟩

theorem periodEnd_unknown (h : (l.periodEnd c).wellLevel = none) : (l.periodEnd c).highLevel = l.highLevel ∧
    (l.periodEnd c).hhLevelPart = l.hhLevelPart ∧ (l.periodEnd c).highHighCause = l.highHighCause := by
  rw [periodEnd_wellLevel] at h
  have hmode := setMode_unknown _ h
  have htest : l.periodEnd c = _ := testHigh_unknown (l.selected c).setMode c (by rw [hmode]; exact h)
  rw [htest, hmode]
  exact ⟨rfl, rfl, rfl⟩

theorem periodEnd_rest : (l.periodEnd c).hhFloatPart = l.hhFloatPart ∧ (l.periodEnd c).rounds = 0 ∧
    (l.periodEnd c).periodSecs = c.balancePeriod ∧ (l.periodEnd c).anyPeriodEnd = true ∧
    (l.periodEnd c).mode = (if (l.periodEnd c).wellLevel.isSome then .level else .float) := by
  rw [periodEnd_wellLevel, periodEnd_eq]
  exact ⟨rfl, rfl, rfl, rfl, rfl⟩

end PeriodEnd

/-! The round of a period end -/

/-- A round moves the samples, the counts and ACQUISITION-FAULT of Level Acquisition, and the parts that its edge touches. -/
theorem takeRound_level (v : Six (BitVec 12)) (r : BitVec 12) (s : State) : let l := (takeRound v r s).level
    EdgeFrame { s with level := l } (takeRound v r s) ∧ l = { s.level with
      channels := l.channels, refRaw := l.refRaw, refSample := l.refSample, discarded := l.discarded, good := l.good
      roundTimer := some 10, rounds := s.level.rounds + 1, acquisitionFault := l.acquisitionFault } := by
  by_cases hgood : 2007 ≤ r.toNat ∧ r.toNat ≤ 2089
  · have hf : EdgeFrame { s with level := s.level.goodRound v r.toNat } (takeRound v r s) := by
      rw [takeRound_good hgood.1 hgood.2]
      dsimp only
      split
      · exact returnKey_frame _ _
      · exact .refl _
    dsimp only
    rw [hf.level]
    exact ⟨hf, rfl⟩
  · have hf : EdgeFrame { s with level := s.level.badRound v r.toNat } (takeRound v r s) := by
      rw [takeRound_bad (by omega)]
      dsimp only
      split
      · exact raise_frame _ _ _ _
      · exact .refl _
    dsimp only
    rw [hf.level]
    exact ⟨hf, rfl⟩

end Sys2Proof.Machine
end


section
/-!
SUPPORT. The station computation from a state that differs only in what it does not read, and what the rest of a period
end leaves of its values (O15).
-/

namespace Sys2Proof.Machine

open Host (Outcome)

/-! What the station computation reads -/

/-- Two states agree in what the station computation reads and makes. -/
structure Alike (s t : State) : Prop where
  level : t.level = s.level
  store : t.store = s.store
  balance : t.balance = s.balance
  pumps : t.pumps = s.pumps

theorem Alike.refl (s : State) : Alike s s := ⟨rfl, rfl, rfl, rfl⟩

theorem Alike.trans {s t u : State} (h : Alike s t) (k : Alike t u) : Alike s u :=
  ⟨k.level.trans h.level, k.store.trans h.store, k.balance.trans h.balance, k.pumps.trans h.pumps⟩

theorem Alike.symm {s t : State} (h : Alike s t) : Alike t s :=
  ⟨h.level.symm, h.store.symm, h.balance.symm, h.pumps.symm⟩

theorem EdgeFrame.alike {s t : State} (h : EdgeFrame s t) : Alike s t := ⟨h.level, h.store, h.balance, h.pumps⟩

section Alike

variable {s t : State} (h : Alike s t)
include h

theorem Alike.running : t.running = s.running := congrArg Store.running h.store

theorem Alike.onBalance {f g : Balance → Balance} (hfg : f = g) : Alike (s.onBalance f) (t.onBalance g) :=
  ⟨h.level, h.store, hfg ▸ congrArg f h.balance, h.pumps⟩

theorem Alike.stageVolume : Alike (stageVolume s) (stageVolume t) := by
  unfold Machine.stageVolume
  rw [h.level, h.running]
  cases s.level.wellLevel with
  | none => exact h.onBalance rfl
  | some v => exact h.onBalance rfl

theorem Alike.stageHead : Alike (stageHead s) (stageHead t) := by
  unfold Machine.stageHead dischargeLevel
  rw [h.level, h.running]
  cases s.level.wellLevel with
  | none => exact h.onBalance rfl
  | some v => exact h.onBalance rfl

theorem Alike.stageFlow : Alike (stageFlow s) (stageFlow t) := by
  refine ⟨h.level, h.store, h.balance, ?_⟩
  unfold Machine.stageFlow State.pump
  rw [h.running, h.balance, h.pumps]

theorem Alike.stageInflow (p : Nat) : Alike (stageInflow p s) (stageInflow p t) := by
  unfold Machine.stageInflow sumFlow
  rw [h.balance, h.pumps]
  cases s.balance.volume with
  | none => exact h.onBalance rfl
  | some v =>
    cases s.balance.vPrev with
    | none => exact h.onBalance rfl
    | some v0 => exact h.onBalance rfl

theorem Alike.setFlag (f : Flag) : Alike (setFlag f s) (setFlag f t) :=
  (setFlag_frame f s).alike.symm.trans (h.trans (setFlag_frame f t).alike)

theorem Alike.stageClass (p : Nat) : Alike (stageClass p s) (stageClass p t) := by
  unfold Machine.stageClass
  rw [h.balance, h.running]
  dsimp only
  split
  · exact h
  · split
    · exact h.onBalance rfl
    · exact (h.onBalance rfl).setFlag .balance

theorem Alike.stageWeir (w : Ix2) : Alike (stageWeir w s) (stageWeir w t) := by
  have hlevel : weirLevel? t w = weirLevel? s w := by
    unfold weirLevel?
    rw [h.level]
  unfold Machine.stageWeir
  rw [hlevel, h.running]
  cases weirLevel? s w with
  | none => exact h.onBalance rfl
  | some v => exact h.onBalance rfl

theorem Alike.stageSpill (p : Nat) : Alike (stageSpill p s) (stageSpill p t) := by
  unfold Machine.stageSpill
  rw [h.balance, h.running]
  dsimp only
  split
  · exact (h.onBalance rfl).setFlag .balance
  · exact h.onBalance rfl

end Alike

/-- The station computation's values do not depend on the wake that R187 puts among its stages. -/
theorem balancePeriodEnd_alike (p : Nat) (s : State) :
    Alike (stageSpill p (stageWeir .i2 (stageWeir .i1 (stageClass p (stageInflow p (stageFlow (stageHead (stageVolume s))))))))
      (balancePeriodEnd p s) := by
  rw [balancePeriodEnd_eq]
  generalize stageClass p (stageInflow p (stageFlow (stageHead (stageVolume s)))) = u
  have hwake : Alike u (if s.balance.cls = .dry ∧ u.balance.cls ≠ .dry then wakeLink true u else u) := by
    split
    · exact (wakeLink_frame true u).alike
    · exact .refl u
  exact ((hwake.stageWeir .i1).stageWeir .i2).stageSpill p

/-- Only the balance, the pumps, the port and the link move. -/
structure Computes (s t : State) : Prop where
  eq : t = { s with balance := t.balance, pumps := t.pumps, port := t.port, link := t.link }

theorem Computes.refl (s : State) : Computes s s := ⟨rfl⟩

theorem Computes.trans {s t u : State} (h : Computes s t) (k : Computes t u) : Computes s u :=
  ⟨by rw [k.eq, h.eq]⟩

theorem wakeLink_computes (b : Bool) (s : State) : Computes s (wakeLink b s) := by
  unfold wakeLink
  split
  · exact ⟨rfl⟩
  · exact .refl s

theorem stageVolume_computes (s : State) : Computes s (stageVolume s) := by
  unfold stageVolume
  split
  · exact ⟨rfl⟩
  · exact ⟨rfl⟩

theorem stageHead_computes (s : State) : Computes s (stageHead s) := by
  unfold stageHead
  split
  · exact ⟨rfl⟩
  · exact ⟨rfl⟩

theorem stageFlow_computes (s : State) : Computes s (stageFlow s) := ⟨rfl⟩

theorem stageInflow_computes (p : Nat) (s : State) : Computes s (stageInflow p s) := by
  unfold stageInflow
  split
  · exact ⟨rfl⟩
  · exact ⟨rfl⟩
  · exact ⟨rfl⟩

theorem stageClass_computes (p : Nat) (s : State) : Computes s (stageClass p s) := by
  unfold stageClass
  dsimp only
  split
  · exact .refl s
  · split
    · exact ⟨rfl⟩
    · exact ⟨rfl⟩

theorem stageWeir_computes (w : Ix2) (s : State) : Computes s (stageWeir w s) := by
  unfold stageWeir
  split
  · exact ⟨rfl⟩
  · exact ⟨rfl⟩

theorem stageSpill_computes (p : Nat) (s : State) : Computes s (stageSpill p s) := by
  unfold stageSpill
  dsimp only
  split
  · exact ⟨rfl⟩
  · exact ⟨rfl⟩

theorem balancePeriodEnd_computes (p : Nat) (s : State) : Computes s (balancePeriodEnd p s) := by
  have hclass : Computes s (stageClass p (stageInflow p (stageFlow (stageHead (stageVolume s))))) :=
    ((((stageVolume_computes s).trans (stageHead_computes _)).trans (stageFlow_computes _)).trans
      (stageInflow_computes p _)).trans (stageClass_computes p _)
  rw [balancePeriodEnd_eq]
  generalize stageClass p (stageInflow p (stageFlow (stageHead (stageVolume s)))) = u at hclass
  have hwake : Computes s (if s.balance.cls = .dry ∧ u.balance.cls ≠ .dry then wakeLink true u else u) := by
    split
    · exact hclass.trans (wakeLink_computes true u)
    · exact hclass
  exact ((hwake.trans (stageWeir_computes .i1 _)).trans (stageWeir_computes .i2 _)).trans (stageSpill_computes p _)

/-! What stands after the station computation -/

/-- The levels, the balance, the settings, the clock, the queue and the pumps' computed flows stand. -/
structure Measured (s t : State) : Prop where
  level : t.level = s.level
  balance : t.balance = s.balance
  store : t.store = s.store
  clock : t.clock = s.clock
  pending : t.pending = s.pending
  flow : ∀ p, (t.pump p).flow = (s.pump p).flow
  limited : ∀ p, (t.pump p).headLimited = (s.pump p).headLimited

theorem Measured.refl (s : State) : Measured s s := ⟨rfl, rfl, rfl, rfl, rfl, fun _ => rfl, fun _ => rfl⟩

theorem Measured.trans {s t u : State} (h : Measured s t) (k : Measured t u) : Measured s u :=
  ⟨k.level.trans h.level, k.balance.trans h.balance, k.store.trans h.store, k.clock.trans h.clock,
    k.pending.trans h.pending, fun p => (k.flow p).trans (h.flow p), fun p => (k.limited p).trans (h.limited p)⟩

theorem PlantFrame.measured {s t : State} (h : PlantFrame s t) : Measured s t :=
  ⟨h.level, h.balance, h.store, h.clock, h.pending, fun p => by rw [h.pumps p]; rfl, fun p => by rw [h.pumps p]; rfl⟩

theorem EdgeFrame.measured {s t : State} (h : EdgeFrame s t) : Measured s t := h.plant.measured

theorem ConcludeFrame.measured {s t : State} (h : ConcludeFrame s t) : Measured s t :=
  ⟨h.level, h.balance, h.store, h.clock, h.pending, fun p => by rw [h.pumps p]; rfl, fun p => by rw [h.pumps p]; rfl⟩

theorem ScreensMove.measured {s t : State} (h : ScreensMove s t) : Measured s t := by
  rw [h.eq]
  exact ⟨rfl, rfl, rfl, rfl, rfl, fun _ => rfl, fun _ => rfl⟩

theorem headPeriodEnd_measured (s : State) : Measured s (headPeriodEnd s) :=
  ⟨rfl, rfl, rfl, rfl, rfl, fun p => by rw [headPeriodEnd_pump], fun p => by rw [headPeriodEnd_pump]⟩

theorem blocksPeriodEnd_measured (lost : Bool) (s : State) : Measured s (blocksPeriodEnd lost s) := by
  have hended : Measured s (if lost then s.onDuty Duty.endDrawdown else s) := by
    split
    · exact ⟨rfl, rfl, rfl, rfl, rfl, fun _ => rfl, fun _ => rfl⟩
    · exact .refl s
  exact (hended.trans (headPeriodEnd_measured _)).trans (formScreens_screensMove _).measured

theorem testTriggers_frame (n : Ix2) (s : State) : PlantFrame s (testTriggers n s) := by
  unfold testTriggers
  split
  · split
    · exact beginOp_frame n .cycle s
    · exact onScreen_frame n (fun sc => { sc with pending := true }) s (fun _ => rfl) fun _ h => h
  · exact .refl s

theorem testAllTriggers_frame (s : State) : PlantFrame s (testAllTriggers s) :=
  plant_foldl _ (fun s n => testTriggers_frame n s) _ s

theorem wantedPeriodEnd_measured (s : State) : Measured s (wantedPeriodEnd s) := by
  rw [wantedPeriodEnd_duty]
  exact ⟨rfl, rfl, rfl, rfl, rfl, fun _ => rfl, fun _ => rfl⟩

theorem showPeriod_measured (s : State) : Measured s (showPeriod s) :=
  ⟨rfl, rfl, rfl, rfl, rfl, fun _ => rfl, fun _ => rfl⟩

/-- What a period end does after the station computation. -/
def afterBalance (lost : Bool) (handed computed : State) : State :=
  showPeriod (settle (testAllTriggers (settle (wantedPeriodEnd (offerPeriodEdges handed (blocksPeriodEnd lost computed))))))

theorem afterBalance_measured (lost : Bool) (handed computed : State) :
    Measured computed (afterBalance lost handed computed) := by
  have hoffered : Measured computed (offerPeriodEdges handed (blocksPeriodEnd lost computed)) :=
    (blocksPeriodEnd_measured lost computed).trans (offerStages_frame ..).measured
  exact ((((hoffered.trans (wantedPeriodEnd_measured _)).trans (settle_frame _).measured).trans
    (testAllTriggers_frame _).measured).trans (settle_frame _).measured).trans (showPeriod_measured _)

/-- The stages after the flows leave the pumps. -/
theorem balancePeriodEnd_pumps (p : Nat) (s : State) :
    (balancePeriodEnd p s).pumps = (stageFlow (stageHead (stageVolume s))).pumps := by
  refine (balancePeriodEnd_sameFlows p s).pumps.trans ?_
  unfold stageInflow
  split <;> rfl

end Sys2Proof.Machine
end


section
/-!
SUPPORT. The period end as a whole (O15).
-/

namespace Sys2Proof.Machine

open Host (Outcome)

/-- What Level Acquisition hands on at a period end (R14). -/
def handedOn (u : State) (l : Level) : State := offerEdges (levelEdges u.level l) { u with level := l }

theorem handedOn_frame (u : State) (l : Level) : EdgeFrame { u with level := l } (handedOn u l) := offerEdges_frame ..

/-- A period end in its parts (R5, R14). -/
theorem takePeriodEnd_eq (u : State) : let l := u.level.periodEnd u.running
    takePeriodEnd u = afterBalance (decide (u.level.mode = .level ∧ l.mode = .float)) (handedOn u l)
      (balancePeriodEnd u.level.periodSecs (handedOn u l)) := by
  intro l
  have hl : (levelPeriodEnd u).level = l := (handedOn_frame u l).level
  have hlost : (decide (u.level.mode = .level) && decide ((levelPeriodEnd u).level.mode = .float)) =
      decide (u.level.mode = .level ∧ l.mode = .float) := by rw [hl, Bool.decide_and]
  exact congrArg (fun b => afterBalance b (levelPeriodEnd u) (balancePeriodEnd u.level.periodSecs (levelPeriodEnd u))) hlost

/-- What a period end and the end of its event leave of the levels, the settings, the clock, the queue and the station
computation. -/
theorem takePeriodEnd_parts {s u : State} (hu : EdgeFrame { s with level := u.level } u) :
    let t := conclude (takePeriodEnd u)
    let l := u.level.periodEnd s.running
    let headed := stageHead (stageVolume { s with level := l })
    let p := u.level.periodSecs
    t.level = l ∧
    t.balance = (stageSpill p (stageWeir .i2 (stageWeir .i1 (stageClass p (stageInflow p (stageFlow headed)))))).balance ∧
    (∀ q, (t.pump q).flow = ((stageFlow headed).pump q).flow ∧
      (t.pump q).headLimited = ((stageFlow headed).pump q).headLimited) ∧
    t.store = s.store ∧ t.clock = s.clock ∧ t.pending = s.pending := by
  have hrunning : u.running = s.running := congrArg Store.running hu.store
  intro t l headed p
  have heq : takePeriodEnd u = afterBalance (decide (u.level.mode = .level ∧ l.mode = .float)) (handedOn u l)
      (balancePeriodEnd p (handedOn u l)) := (takePeriodEnd_eq u).trans (by rw [hrunning])
  have hmeasured : Measured (balancePeriodEnd p (handedOn u l)) t := by
    have hc : ConcludeFrame _ t := conclude_frame (takePeriodEnd u)
    rw [heq] at hc
    exact (afterBalance_measured ..).trans hc.measured
  have hhanded := handedOn_frame u l
  have hround : Alike { s with level := l } { u with level := l } := ⟨rfl, hu.store, hu.balance, hu.pumps⟩
  have halike : Alike { s with level := l } (handedOn u l) := hround.trans hhanded.alike
  have hcomputes := balancePeriodEnd_computes p (handedOn u l)
  have hflows : Alike (stageFlow headed) (stageFlow (stageHead (stageVolume (handedOn u l)))) :=
    halike.stageVolume.stageHead.stageFlow
  have hbalance := (((((hflows.stageInflow p).stageClass p).stageWeir .i1).stageWeir .i2).stageSpill p).trans
    (balancePeriodEnd_alike p (handedOn u l))
  have hpump : ∀ q, (balancePeriodEnd p (handedOn u l)).pump q = (stageFlow headed).pump q := fun q => by
    unfold State.pump
    rw [balancePeriodEnd_pumps, hflows.pumps]
  generalize balancePeriodEnd p (handedOn u l) = v at hmeasured hcomputes hbalance hpump
  generalize conclude (takePeriodEnd u) = t' at t hmeasured
  refine ⟨?_, hmeasured.balance.trans hbalance.balance, fun q => ⟨?_, ?_⟩, ?_, ?_, ?_⟩
  · rw [hmeasured.level, hcomputes.eq, hhanded.level]
  · rw [hmeasured.flow, hpump]
  · rw [hmeasured.limited, hpump]
  · rw [hmeasured.store, hcomputes.eq, hhanded.store, hu.store]
  · rw [hmeasured.clock, hcomputes.eq, hhanded.clock, hu.clock]
  · rw [hmeasured.pending, hcomputes.eq, hhanded.pending, hu.pending]

/-! The edges and what the summary shows -/

theorem spillEdges_eq (a b : Balance) : spillEdges a b =
    (if (a.weirs.get .i1).spill = .dry ∧ (b.weirs.get .i1).spill = .spilling
      then [⟨.spilling, 1, some (bytes2 (b.weirs.get .i1).tally.peak)⟩] else []) ++
    if (a.weirs.get .i2).spill = .dry ∧ (b.weirs.get .i2).spill = .spilling
      then [⟨.spilling, 2, some (bytes2 (b.weirs.get .i2).tally.peak)⟩] else [] := by
  show spillEdge _ _ _ ++ (spillEdge _ _ _ ++ []) = _
  rw [List.append_nil, spillEdge_eq, spillEdge_eq]
  rfl

theorem blockedEdges_eq (a b : State) : blockedEdges a b =
    causeEdge .screenBlocked 1 (a.screen .i1).blocked (b.screen .i1).blocked (bytes2 (b.screen .i1).differential) ++
    causeEdge .screenBlocked 2 (a.screen .i2).blocked (b.screen .i2).blocked (bytes2 (b.screen .i2).differential) := by
  show causeEdge _ _ _ _ _ ++ (causeEdge _ _ _ _ _ ++ []) = _
  rw [List.append_nil]
  rfl

/-- The last round of its period (R5). -/
theorem exec_lastRound {s : State} {v : Six (BitVec 12)} {r : BitVec 12} (ht : s.level.roundTimer = some 0)
    (hp : 10 * s.level.periodSecs ≤ s.level.rounds + 1) :
    exec (.roundComplete v r) s = .next (conclude (takePeriodEnd (takeRound v r s))) ∧
    exec (.periodEnd v r) s = .next (conclude (takePeriodEnd (takeRound v r s))) := by
  have hlevel := (takeRound_level v r s).2
  have hlast : periodComplete (takeRound v r s) = true := decide_eq_true (by rw [hlevel]; exact hp)
  refine ⟨exec_due (congrArg some ?_) (timerDue_on ht), exec_due rfl (timerDue_and_on ht (decide_eq_true hp))⟩
  exact if_pos hlast

/-- Settles O15. -/
theorem periodEndFormsLevels : Obligations.PeriodEndFormsLevels := by
  refine ⟨fun s v r ht hp => ?_, fun a b => ?_, fun a b => ?_, fun s => ?_⟩
  · obtain ⟨hround, hperiod⟩ := exec_lastRound (v := v) (r := r) ht hp
    refine ⟨hround.trans hperiod.symm, _, hperiod, ?_⟩
    obtain ⟨hu, hlevel⟩ := takeRound_level v r s
    obtain ⟨hl, hb, hq, hst, hk, hpe⟩ := takePeriodEnd_parts hu
    have heq := congrArg conclude (takePeriodEnd_eq (takeRound v r s))
    generalize conclude (takePeriodEnd (takeRound v r s)) = t at hl hb hq hst hk hpe heq ⊢
    generalize takeRound v r s = u at hu hlevel hl hb hq heq ⊢
    have hrunning : u.running = s.running := congrArg Store.running hu.store
    have hsecs : u.level.periodSecs = s.level.periodSecs := by rw [hlevel]
    have hmode : u.level.mode = s.level.mode := by rw [hlevel]
    have hfloat : u.level.floatMode = s.level.floatMode := by rw [hlevel]
    have hany : u.level.anyPeriodEnd = s.level.anyPeriodEnd := by rw [hlevel]
    have hwas : u.level.wellDisagree = s.level.wellDisagree := by rw [hlevel]
    have hhigh : u.level.highLevel = s.level.highLevel := by rw [hlevel]
    have hpart : u.level.hhLevelPart = s.level.hhLevelPart := by rw [hlevel]
    have hcause : u.level.highHighCause = s.level.highHighCause := by rw [hlevel]
    have hffloat : u.level.hhFloatPart = s.level.hhFloatPart := by rw [hlevel]
    rw [hrunning] at heq
    rw [hsecs] at hb heq
    rw [hmode] at heq
    obtain ⟨hff, hrounds, hnext, htaken, hnow⟩ := periodEnd_rest s.running u.level
    rw [hl]
    refine ⟨?_, hnow, ?_, fun w hw => ?_, fun hn => ?_, hff.trans hffloat, hrounds, hnext, htaken, ⟨heq, hb, hq⟩, hst, hk, hpe⟩
    · intro c ok value valids invalids
      have hvalue : ∀ n, u.level.periodValue n = value n := fun n => by
        unfold Level.periodValue
        rw [hsecs]
      refine ⟨fun n => ?_, ?_, ?_⟩
      · rw [periodEnd_channel, nextPeriod_eq, hsecs]
        exact ⟨rfl, rfl, rfl, rfl, rfl, rfl, rfl, rfl, rfl, rfl, rfl⟩
      · rw [periodEnd_wellLevel, selected_wellLevel, hvalue, hvalue]
        cases value .i4 with
        | none => cases value .i5 <;> rfl
        | some a =>
          cases value .i5 with
          | none => rfl
          | some b => exact selectLevel_both ..
      · rw [periodEnd_wellDisagree, selected_wellDisagree, hvalue, hvalue, hwas]
        cases value .i4 with
        | none => rfl
        | some a =>
          cases value .i5 with
          | none => rfl
          | some b => exact disagreeAfter_both ..
    · rw [periodEnd_floatMode, ← periodEnd_wellLevel, hmode, hfloat, hany]
      cases (u.level.periodEnd s.running).wellLevel <;> cases s.level.mode <;> rfl
    · obtain ⟨hset, hlevelPart, hboth⟩ := periodEnd_known s.running u.level hw
      exact ⟨hset.trans (by rw [hhigh]), hlevelPart, hboth.trans (by rw [hffloat])⟩
    · obtain ⟨hset, hlevelPart, hboth⟩ := periodEnd_unknown s.running u.level hn
      exact ⟨hset.trans hhigh, hlevelPart.trans hpart, hboth.trans hcause⟩
  · intro edge word
    have hbits := bits_two b.hhFloatPart b.hhLevelPart
    unfold levelEdges highHighEdge
    rw [hbits]
    rfl
  · intro edge opened blocked
    unfold offerPeriodEdges
    rw [spillEdges_eq, blockedEdges_eq]
    rfl
  · rfl

end Sys2Proof.Machine
end
